-- ==== Sys2Proof/Word.lean ====
section
/-! DEFINITION. Sys2Proof/Word.lean: the word types of the model. -/
namespace Sys2Proof

/-- One byte (R4). -/
abbrev Byte := BitVec 8

/-- A device address, or an offset in a register space, while it is a key of memory. -/
abbrev Addr := Nat

/-- One row image of a macro bank (R42) with its two parity cells (R58): bits 255..0 are the cells, bit 256 the stored
parity of bits 127..0, bit 257 that of bits 255..128. -/
abbrev RowCells := BitVec 258

/-- A sparse table: pairs of a key and a value in strictly rising order of the key. -/
abbrev Table (α : Type) := List (Nat × α)

end Sys2Proof
end

