-- ==== Sys2Proof/Syntax.lean ====
section
/-! DEFINITION. Sys2Proof/Syntax.lean: the commands the block takes, one constructor per row of the opcode table, with their operands.
Unit numbers are bounded by their types. What the outside decides (data returned by the host, the result of a check the array
makes, a sensor reading, the bytes of a frame) is an operand. -/
namespace Sys2Proof

/-- Who accesses a register: the host through function 0 (the physical function) or a virtual function, a Helam processor
(R11, R303), or the test engine (R162). -/
inductive Requester where
  | fn (f : Fin 64)
  | proc (k : Fin 6)
  | testEngine
  deriving DecidableEq, Repr

/-- A switchable function of R30. -/
inductive SwUnit where
  | core (n : Fin 256)
  | cim (n : Fin 256) (m : Fin 68)
  | bank (n : Fin 256) (m : Fin 68) (b : Fin 2)
  | ctx (c : Fin 16384)
  | part (p : Fin 4)
  | port (p : Fin 2)
  | stack (s : Fin 24)
  | proc (k : Fin 6)
  deriving DecidableEq, Repr

/-- Which host read of a context a HOST_READ_ERROR concerns (R328). -/
inductive HostRead where
  | shadow | descriptors | copySource
  deriving DecidableEq, Repr

/-- A banked array: a core scratchpad, a die pool or the deck home (R185, R168). -/
inductive BankArray where
  | scratch (n : Fin 256)
  | pool (d : Fin 4)
  | deckHome
  deriving DecidableEq, Repr

/-- A part of the neighbour links of a die (R21, R22): the segment between stops `i` and `i + 1` modulo 66, or stop `i`; and the direction of the transfer that failed
in it, 0 increasing. -/
inductive LinkPart where
  | segment (i : Fin 66) (dir : Fin 2)
  | stop (i : Fin 66) (dir : Fin 2)
  deriving DecidableEq, Repr

/-- The width of an atomic operand (R194). -/
inductive AtomicWidth where
  | w4 | w8
  /-- A width that the banks do not perform. -/
  | other (bytes : Nat)
  deriving DecidableEq, Repr

/-- What a claim on a bank asks for (R188, R194): a read, a write of some bytes of a word, or an atomic on an operand at a byte of the word. -/
inductive BankOp where
  | read
  | write (bytes : List (Nat × Byte))
  | atomic (add : Bool) (w : AtomicWidth) (off : Nat) (v : BitVec 64)
  deriving DecidableEq, Repr

/-- A master of the banks (R192): its number, and the partition it acts for (`none`: the management partition). -/
structure BankMaster where
  number : Fin 256
  part : Option (Fin 4)
  deriving DecidableEq, Repr

/-- A claim presented to a bank in one cycle: the master (R192), the row of the bank, the operation, the partition it acts for (`none`:
the device itself), and whether it comes from Helam processor 0 (R205). -/
structure BankClaim where
  master : Nat
  row : Nat
  op : BankOp
  partition : Option (Fin 4)
  proc0 : Bool
  /-- The in-flight descriptor the request belongs to, if any. -/
  flight : Option Nat
  deriving DecidableEq, Repr

/-- What the check bits of a word of a bank say when it is read (R198, R199): clean, one bad bit corrected in a column, or more bad bits in a
granule of the word, whose second read is clean or correctable (`transient`), or not (`lasting`). -/
inductive WordEcc where
  | clean
  | corrected (column : Nat)
  | transient (granule : Fin 8)
  | lasting (granule : Fin 8)
  deriving DecidableEq, Repr

/-- What the check bits of a unit of a stack say when it is read (R226, R227): clean, one bad bit corrected in a column, or more; the second read of an
uncorrectable word is clean or correctable (`transient`), or not (`lasting`). -/
inductive EccResult where
  | clean
  | corrected (column : Nat)
  | transient
  | lasting
  deriving DecidableEq, Repr

/-- An Ethernet frame as a port receives it (R240, R262): destination address, 802.1Q tag control information, if tagged, EtherType, what follows it up to
the FCS, whether the FCS is good, and how many codewords the port corrected and could not correct as it came in. -/
structure EthFrame where
  dst : BitVec 48
  tag : Option (BitVec 16)
  etherType : BitVec 16
  data : List Byte
  fcsOk : Bool
  fec : Nat × Nat := (0, 0)
  deriving DecidableEq, Repr

/-- An IEEE 802.1AS message other than Sync (R242): an Announce with its priority vector, whose smaller values are better, or the result of a peer-delay
exchange. -/
inductive GptpMessage where
  | announce (v : BitVec 224)
  | peerDelay (ns : BitVec 16) (capable : Bool)
  deriving DecidableEq, Repr

/-- The frames of an exchange of IEEE 802.1AS (R240, R242): the sizes of those received and of those sent, and their domain. -/
structure AsFrames where
  got : List (Fin 9217)
  sent : List (Fin 9217)
  dom : BitVec 8
  deriving DecidableEq, Repr

/-- An access to a doorbell page (R306), of so many bytes. -/
inductive DoorbellAccess where
  | write (len : Nat)
  | read (len : Nat)
  deriving DecidableEq, Repr

/-- How many bytes an access to a doorbell page has. -/
def DoorbellAccess.len : DoorbellAccess → Nat
  | .write n | .read n => n

/-- A configuration request (R292): the function it names, and the size it asks of BAR4, if it resizes it. -/
structure ConfigAccess where
  f : Fin 64
  resize : Option (Fin 64)
  deriving DecidableEq, Repr

/-- Activity that the hardware counts (R390): the compute die, the row of the table of coefficients, and the units. -/
abbrev Activity := List (Fin 4 × Fin 12 × Nat)


/-- Activity of a window tagged with the context it serves (R390): the context, the in-flight descriptor it belongs to, the compute die, the row of the table of
coefficients, and the units. -/
structure CtxActivity where
  ctx : Fin 16384
  flight : Option Nat
  die : Fin 4
  kind : Fin 12
  units : Nat
  deriving DecidableEq, Repr

/-- One read of the sensors that are read every 100 µs, and of the board's where it is due (R384), in °C: junctions by logical core, hotspots (four of each die, in
die order), the two I/O-die sensors, inlet and power stage. -/
structure ThermalRead where
  cores : List (Fin 256 × BitVec 8)
  hotspots : List (Fin 16 × BitVec 8)
  ioDie : List (Fin 2 × BitVec 8)
  board : Option (BitVec 8 × BitVec 8)
  deriving DecidableEq, Repr

/-- The transport of an SPDM request (R365): the DOE mailbox of the physical function, or MCTP. -/
inductive SpdmVia where
  | doe | mctp
  deriving DecidableEq, Repr

/-- A request at the factory test port (R359, R362, R435): a root slot with its hash, a life-cycle transition, the contents of a flash region. -/
inductive FactoryCmd where
  | rootSlot (slot : Fin 4) (hash : BitVec 256)
  | lifeCycle (t : Fin 8)
  | flash (entry : Fin 3) (data : List Byte)
  deriving DecidableEq, Repr

/-- The commands: one constructor per row of the opcode table. -/
inductive Instr where
  /-- REGISTER_WRITE, R5: A BAR0 write to a register field with no row of its own acts according to the field's access type. -/
  | registerWrite (q : Requester) (off : Nat) (size8 : Bool) (val : BitVec 64)
  /-- BAR0_ACCESS_ERROR, R10: A BAR0 access that is not a naturally aligned 4- or 8-byte access with all byte enables completes with read zero or write discarded, and the access-error counter increments. -/
  | bar0AccessError (q : Requester) (read : Bool) (off len : Nat) (whole : Bool)
  /-- HALF_WRITE_STAGE, R11: A 4-byte write to the lower half of a 64-bit register is staged and tagged per requester without changing the register. -/
  | halfWriteStage (q : Requester) (off : Nat) (val : BitVec 32)
  /-- HALF_WRITE_COMMIT, R11: A 4-byte write to the upper half of a 64-bit register sets the whole value from the stage or the present lower half, and empties the stage. -/
  | halfWriteCommit (q : Requester) (off : Nat) (val : BitVec 32)
  /-- HALF_READ_LATCH, R11: A 4-byte read of the lower half of a 64-bit register returns it and latches the upper half, tagged for the requester. -/
  | halfReadLatch (q : Requester) (off : Nat) (size8 : Bool)
  /-- EN_WRITE, R31: A write of EN in a switchable function's state word moves its enable state machine or sets or clears ENABLE_PENDING. -/
  | enWrite (q : Requester) (u : SwUnit) (v : Fin 2)
  /-- STARTING_COMPLETE, R31: A function's STARTING work ends and the function goes to ON, or to STOPPING if EN is 0 or a check failed. -/
  | startingComplete (u : SwUnit) (ok : Bool) (lanes : BitVec 6) (ms : BitVec 10)
  /-- START_TIME_LIMIT, R32: STARTING passes its time limit and the start fails, taking the function to STOPPING. -/
  | startTimeLimit (u : SwUnit)
  /-- SAFE_POINT_REACHED, R31: A STOPPING function reaches its safe point and goes to OFF, or through OFF to STARTING when ENABLE_PENDING is 1. -/
  | safePointReached (u : SwUnit)
  /-- CTX_COMMIT, R303: A write to HOST_CTX_COMMIT checks the staged entry and replaces the context-table entry atomically, or reports the first failing cause or GEOMETRY_KEPT. -/
  | ctxCommit (q : Requester) (c : Fin 16384)
  /-- SETUP_LOCK_CLOSE, R301: A write of 1 to HOST_SETUP_LOCK.LOCKED closes the set-up lock, freezing every RWL field until fundamental reset. -/
  | setupLockClose (q : Requester)
  /-- LAYOUT_WRITE, R297: A write to HOST_PART_CFG.LAYOUT changes the partition layout only while every partition is OFF and the value is not reserved. -/
  | layoutWrite (q : Requester) (v : Fin 4)
  /-- CTX_RESET, R330: A write of 1 to CTX_RESET while the context is OFF zeroes FETCHED and CPL_COUNT. -/
  | ctxReset (q : Requester) (c : Fin 16384)
  /-- DOORBELL, R306: A doorbell write to a context's page is ignored, remembered or acted on by its context state, issuing a shadow read or setting AGAIN or PENDING_DB. -/
  | doorbell (f : Fin 64) (page off : Nat) (acc : DoorbellAccess)
  /-- SHADOW_READ_RETURN, R307: A shadow read returns; the tail shadow is validated, fetching proceeds, and a further read is issued if AGAIN was set. -/
  | shadowReadReturn (c : Fin 16384) (tail head : BitVec 32)
  /-- DESCRIPTOR_FETCH_RETURN, R308: A fetch of up to 8 descriptors returns and the descriptors are validated for dispatch. -/
  | descriptorFetchReturn (c : Fin 16384) (ds : List (BitVec 512))
  /-- DESCRIPTOR_DISPATCH, R311: A validated descriptor that was held back by WAIT_PREV, a FENCE or busy resources is dispatched in ring order. -/
  | descriptorDispatch (c : Fin 16384) (data : Option (List Byte))
  /-- DESCRIPTOR_COMPLETE, R311: A dispatched descriptor completes once all its writes are performed. -/
  | descriptorComplete (c : Fin 16384) (id ns : Nat) (acts : Activity)
  /-- MSIX_MODERATION_EXPIRY, R322: The moderation interval of a context ends and the messages held in it are sent as one message. -/
  | msixModerationExpiry (c : Fin 16384)
  /-- HOST_READ_ERROR, R328: A host read for a context ends with an error and is issued once more, or classified lasting on a second failure. -/
  | hostReadError (c : Fin 16384) (k : HostRead)
  /-- COMPLETION_WRITE_REJECTED, R328: A completion write rejected by IDE is lost without advancing CPL_COUNT and raises a context fault with cause 0x4. -/
  | completionWriteRejected (c : Fin 16384) (id : Nat)
  /-- QS_ADMIT, R324: A queue scheduler admits pending contexts to resident places in class then context order. -/
  | qsAdmit (q : Fin 2)
  /-- QS_EVICT, R324: A queue scheduler begins evicting an idle unpinned resident context to make room. -/
  | qsEvict (q : Fin 2) (c : Fin 16384) (ns : Nat)
  /-- EVICTION_COMPLETE, R324: An eviction ends and the context leaves the resident set, keeping its counts and entry. -/
  | evictionComplete (c : Fin 16384)
  /-- BAR4_ACCESS, R300: A host access through BAR4 reaches device memory at BASE plus offset, or is refused and counted. -/
  | bar4Access (f : Fin 64) (off len : Nat) (data : Option (List Byte))
  /-- FUNCTION_LEVEL_RESET, R332: A Function Level Reset takes every context of the function through STOPPING in abort mode to OFF with the effect of CTX_RESET. -/
  | functionLevelReset (f : Fin 64)
  /-- D3HOT_ENTRY, R333: A write moving a function from D0 to D3hot stops its contexts in abort mode, arms leaves and stops decoding its BARs. -/
  | d3hotEntry (f : Fin 64)
  /-- D0_RETURN, R333: A function returns to D0 with its configuration space, BAR values and MSI-X table kept. -/
  | d0Return (f : Fin 64)
  /-- MATRIX, R132: A MATRIX descriptor reads its operation record, checks it and arms or starts the operation. -/
  | matrix (c : Fin 16384)
  /-- WEIGHT_WRITE, R68: A WEIGHT_WRITE descriptor checks its macros and banks and starts a program-and-verify or single-pass write of a weight set. -/
  | weightWrite (c : Fin 16384)
  /-- BANK_SWAP, R71: A BANK_SWAP descriptor enters bank order in each named macro, or is armed for a course. -/
  | bankSwap (c : Fin 16384)
  /-- COPY, R313: A COPY descriptor moves bytes in increasing address order between device and host memory. -/
  | copy (c : Fin 16384) (data : Option (List Byte))
  /-- FILL, R314: A FILL descriptor writes a repeated 8-byte pattern to a destination. -/
  | fill (c : Fin 16384)
  /-- CONVERT, R315: A CONVERT descriptor converts lines of elements through the drains of the partition's cores. -/
  | convert (c : Fin 16384)
  /-- STATS, R316: A STATS descriptor gathers maxabs over a tensor and writes statistics entries. -/
  | stats (c : Fin 16384)
  /-- PLAN_LOAD, R286: A PLAN_LOAD descriptor copies a course plan into the staged store after validating it. -/
  | planLoad (c : Fin 16384)
  /-- PLAN_CANCEL, R286: A PLAN_LOAD with CANCEL = 1 removes the staged plan. -/
  | planCancel (c : Fin 16384)
  /-- COURSE_WAIT, R290: A COURSE_WAIT descriptor is armed to complete at the boundary of a given course. -/
  | courseWait (c : Fin 16384)
  /-- FENCE, R317: A FENCE descriptor waits for earlier descriptors of its ring, or of its partition, and holds later descriptors back. -/
  | fence (c : Fin 16384)
  /-- EVENT_WRITE, R318: An EVENT descriptor with OP 0 writes VALUE as 8 bytes, raises its vector and completes. -/
  | eventWrite (c : Fin 16384)
  /-- EVENT_ADD, R318: An EVENT descriptor with OP 1 performs an atomic ADD of VALUE, raises its vector and completes. -/
  | eventAdd (c : Fin 16384)
  /-- EVENT_SIGNAL, R318: An EVENT descriptor with OP 2 writes nothing, raises its vector and completes. -/
  | eventSignal (c : Fin 16384)
  /-- JOB_JOIN, R287: A JOB_JOIN descriptor checks the module and arms the counter reload under the job anchor at JOIN_COURSE. -/
  | jobJoin (c : Fin 16384)
  /-- JOB_LEAVE, R288: A JOB_LEAVE descriptor arms a leave at LEAVE_COURSE and sets LEAVING in status words. -/
  | jobLeave (c : Fin 16384)
  /-- CHECKPOINT_SAVED, R289: A CHECKPOINT with MODE 0 completes after its checkpoint course and earlier descriptors, and sets CKPT_DONE. -/
  | checkpointSaved (c : Fin 16384)
  /-- CHECKPOINT_RESTORED, R289: A CHECKPOINT with MODE 1 reports READY for the committed course and completes at the resume course. -/
  | checkpointRestored (c : Fin 16384)
  /-- MACRO_VECTOR, R46: A macro drives the bit-planes of one vector against its active bank and accumulates exact slot subtotals. -/
  | macroVector (n : Fin 256) (m : Fin 64) (v : Fin 32)
  /-- PV_ROW_ATTEMPT_END, R54: A program-and-verify row attempt ends its margin read and the row passes, is retried or fails finally. -/
  | pvRowAttemptEnd (n : Fin 256) (m : Fin 68) (pass : Bool)
  /-- SINGLE_PASS_WRITE_DONE, R58: A single-pass write finishes its 512 rows, parity checks and queued rewrites, and the write outcome is set. -/
  | singlePassWriteDone (n : Fin 256) (m : Fin 68) (firstFails rewriteFails : List (Fin 512))
  /-- BANK_SWAP_APPLY, R61: A swap reaches the head of bank order, checks the target bank and swaps or fails in its macro. -/
  | bankSwapApply (n : Fin 256) (m : Fin 68)
  /-- CHUNK_PROMOTE, R111: A chunk whose totals and scale are present is promoted into its wide total by one fused multiply-add. -/
  | chunkPromote (n : Fin 256) (row col : Nat)
  /-- TOTALS_ARRIVE, R114: A row's totals arrive over the neighbour link at the next chain core and queued chunks can be promoted. -/
  | totalsArrive (n : Fin 256) (faultAt : Option (LinkPart × Bool))
  /-- BLOCK_PASS_END, R145: A core finishes a level-1 tile and hands the block to the chain or drain, or spills it. -/
  | blockPassEnd (n : Fin 256)
  /-- SPILL_RESUME, R117: A head core reads a spill record, checks TILE, GEN, K_NEXT and shape, and resumes the totals or ends with SPILL_MISMATCH. -/
  | spillResume (n : Fin 256)
  /-- SCALE_ARRIVE, R120: A scale or exponent entry read by the scale streamer arrives and waiting chunks proceed. -/
  | scaleArrive (n : Fin 256) (operand : Fin 2) (line group : Nat)
  /-- BLOCK_DRAIN, R154: An output block leaves the tail core through the drain chain steps and is written. -/
  | blockDrain (n : Fin 256)
  /-- TILE_REPLAY, R125: After its first drain a tile that reached REPLAY_THRESHOLD saturations is drained again with own scales. -/
  | tileReplay (n : Fin 256)
  /-- TILE_START, R145: A gang or core starts walking a claimed deck tile, staging its A rows. -/
  | tileStart (op dr : Nat)
  /-- HALO_FETCH, R153: A gang reads a halo slot header and data, hitting or missing and reading X instead. -/
  | haloFetch (op dr : Nat)
  /-- STREAMING_LOAD_WRITE, R160: The sequencer writes the next load of a streaming B into the inactive bank and swaps it in through bank order. -/
  | streamingLoadWrite (n : Fin 256)
  /-- LEVEL0_COMMAND, R163: A write of SEQ_L0_CMD by a Helam processor or the test engine runs a level-0 command and writes raw subtotals. -/
  | level0Command (q : Requester) (n : Fin 256) (off : BitVec 32)
  /-- L0_ONLY_CHANGE, R162: A change of L0_ONLY takes effect once the core holds no deck tile. -/
  | l0OnlyChange (q : Requester) (n : Fin 256) (v : Fin 2)
  /-- DECK_DRAW, R173: A lead draws a hand by atomic add on NEXT, receiving tiles or the empty marker. -/
  | deckDraw (op dr : Nat)
  /-- TILE_CLAIM, R176: A lead reads and swaps a tile's claim word with a new generation, winning or losing the tile. -/
  | tileClaim (op dr : Nat)
  /-- TILE_FINISH, R177: When a tile's writes complete, the lead marks it DONE, adds its counts and adds 1 to DONE. -/
  | tileFinish (op dr : Nat)
  /-- STEAL_SEARCH, R178: A lead whose draw was empty searches other drawers' hands from the top for a claimable tile. -/
  | stealSearch (op dr : Nat)
  /-- TILE_RETURN, R179: An abandoned tile's claim word is swapped to RETURNED once the gang's remaining cores reach their safe points. -/
  | tileReturn (op dr : Nat)
  /-- STALL_TIMEOUT, R181: No lead progressing for STALL_MS ends the operation with CORE_UNAVAILABLE. -/
  | stallTimeout (op : Nat)
  /-- BANK_ACCESS, R188: A master's claim on a scratchpad, die-pool or deck-home bank is granted or made to wait. -/
  | bankAccess (arr : BankArray) (bank : Fin 192) (claims : List BankClaim) (ecc : WordEcc)
  /-- CORRECTION_WRITEBACK, R198: The corrected granule is written back in the bank's next free cycle unless a write came first. -/
  | correctionWriteback (arr : BankArray) (bank : Fin 192)
  /-- ATOMIC_ADD, R194: An atomic ADD at a die-pool or deck-home bank adds modulo the width and returns the old value. -/
  | atomicAdd (who : BankMaster) (proc0 : Bool) (fl : Option Nat) (a : Nat) (w : AtomicWidth) (v : BitVec 64) (ecc : WordEcc)
  /-- ATOMIC_SWAP, R194: An atomic SWAP at a die-pool or deck-home bank stores the operand and returns the old value. -/
  | atomicSwap (who : BankMaster) (proc0 : Bool) (fl : Option Nat) (a : Nat) (w : AtomicWidth) (v : BitVec 64) (ecc : WordEcc)
  /-- POOL_PATROL_READ, R200: A die-pool patrol read reads a word in a free bank cycle and handles its errors. -/
  | poolPatrolRead (die : Fin 4) (word : Fin 786432) (ecc : WordEcc)
  /-- BORROW_COPY_DONE, R204: The copy of a bank into a borrowed spare bank, or the copy back, ends. -/
  | borrowCopyDone (arr : BankArray) (spare : Fin 4)
  /-- VAULT_WIPE_REQUEST, R207: A write of WIPE by Helam processor 0 starts a wipe of every die's vault. -/
  | vaultWipeRequest (q : Requester)
  /-- VAULT_WIPE_END, R206: A vault wipe ends its read-back, passing or setting VAULT_FAULT. -/
  | vaultWipeEnd (die : Fin 4) (ok : Bool) (bank : Fin 196) (row : Fin 4096)
  /-- STACK_READ, R221: A unit read from a stack returns data, checked by its ECC. -/
  | stackRead (a : Nat) (part : Option (Fin 4)) (fl : Option Nat) (source : Fin 5) (granule : Fin 32) (ecc : EccResult) (other : Option (Fin 12)) (severe : Bool)
  /-- WALL_WRITE, R223: A write to wall space goes straight to the stacks, is issued as a full-stripe write, or enters an assembly slot. -/
  | wallWrite (a : Nat) (bytes : List Byte) (part : Option (Fin 4)) (fl : Option Nat) (held : List (Fin 100663296))
  /-- ASSEMBLY_SLOT_TIMEOUT, R223: An assembly slot open for TIMEOUT_NS closes as a partial write. -/
  | assemblySlotTimeout (w : Fin 2) (S : Fin 100663296)
  /-- STRIPE_LOCK_GRANT, R222: A home engine grants a waiting stripe lock in arrival order. -/
  | stripeLockGrant (w : Fin 2) (S : Fin 100663296) (cycles : Nat)
  /-- STACK_LINK_PARITY_ERROR, R228: A stack reports a command or write-data parity error and the command is reissued or the stack leaves service. -/
  | stackLinkParityError (st : Fin 24) (reissueFails : Bool)
  /-- REBUILD_STEP, R230: A home engine rebuilds one stripe onto a returning stack and advances STRIPE. -/
  | rebuildStep (w : Fin 2)
  /-- STACK_TEMP_READ, R232: A stack temperature sensor is read every 1 ms and passed to thermal control. -/
  | stackTempRead (st : Fin 24) (t : BitVec 8)
  /-- STACK_PATROL_READ, R234: A patrol read of a stack unit handles its errors without a requester. -/
  | stackPatrolRead (st : Fin 24) (S : Fin 100663296) (granule : Fin 32) (ecc : EccResult) (other : Option (Fin 12)) (severe : Bool)
  /-- PORT_LINK_DOWN, R239: A fabric port loses its link while ON and retrains by itself. -/
  | portLinkDown (p : Fin 2)
  /-- PORT_LINK_UP, R239: A fabric port completes retraining and its link is up. -/
  | portLinkUp (p : Fin 2)
  /-- ETHERNET_FRAME_DROPPED, R240: A received frame that is oversize, not Dyosh, not 802.1AS or PAUSE is discarded and counted. -/
  | ethernetFrameDropped (p : Fin 2) (fr : EthFrame)
  /-- SYNC_RECEIVED, R242: An IEEE 802.1AS Sync message is handled by the time servo. -/
  | syncReceived (p : Fin 2) (ns : Nat) (fr : AsFrames) (gm : BitVec 64) (err : BitVec 16) (converged : Bool)
  /-- SYNC_TIMEOUT, R244: No Sync on either port for three intervals puts the time unit in HOLDOVER or HOLDOVER_PPS. -/
  | syncTimeout (ns : Nat)
  /-- SLAVE_PORT_MOVE, R243: Sync lost on the slave port moves the slave role to the other port with slewing. -/
  | slavePortMove
  /-- TIME_LOST, R244: TIME_ERR exceeds LIMIT_NS and the time unit enters LOST. -/
  | timeLost (ns : Nat)
  /-- PPS_EDGE, R245: A rising edge on PPS_IN is measured against fabric time, or sets phase in holdover. -/
  | ppsEdge (ns : Nat)
  /-- PPS_ABSENT, R245: No PPS edge for 2 s clears PPS_SEEN. -/
  | ppsAbsent (ns : Nat)
  /-- IDLE_LEN_WRITE, R249: A write to CRS_IDLE_LEN sets the idle course length taken at the next idle boundary. -/
  | idleLenWrite (q : Requester) (v : BitVec 32)
  /-- COURSE_BOUNDARY, R251: The time unit fires the boundary of a course and applies its scheduled changes in the fixed order. -/
  | courseBoundary
  /-- SLOT_SEND, R268: A send slot starts at its scaled offset and sends all segments, or fails NOT_READY. -/
  | slotSend (slot : BitVec 12)
  /-- DATA_FRAME, R269: A received DATA frame is matched to a receive entry and written; a complete receive is ACKed and a defective one NACKed. -/
  | dataFrame (p : Fin 2) (fr : EthFrame) (ns : Nat)
  /-- ACK_FRAME, R264: A received ACK or NACK acknowledges a slot or marks it failed. -/
  | ackFrame (p : Fin 2) (fr : EthFrame) (ns : Nat)
  /-- ACK_DEADLINE, R270: A slot's acknowledgement deadline passes without an ACK and the slot fails. -/
  | ackDeadline (course : BitVec 64) (slot : BitVec 12)
  /-- REPAIR_SLOT, R270: The repair slot re-sends the previous course's failed slots, or marks them lasting. -/
  | repairSlot (p : Fin 2)
  /-- RECEIVE_DEADLINE, R271: A receive still incomplete after the sender's repair slot plus ACK_NS is a lasting receive failure. -/
  | receiveDeadline (ix : Fin 4096)
  /-- STATUS_WORD_SEND, R267: The module sends its status word to the control group at STATUS_OFF. -/
  | statusWordSend
  /-- STATUS_FRAME, R274: The keystone or successor receives a status word and records slack, requests and faults. -/
  | statusFrame (p : Fin 2) (fr : EthFrame) (ns : Nat)
  /-- STATUS_MISS_LIMIT, R274: MISS_LIMIT consecutive courses without a module's status word make it a lasting fault. -/
  | statusMissLimit (m : Fin 1024)
  /-- KEYSTONE_WORD_SEND, R278: The keystone sends the keystone word with anchor, pace, commitment and suspension state. -/
  | keystoneWordSend
  /-- KEYSTONE_FRAME, R274: A member receives a keystone word and checks its anchor, pace change, suspension and resume. -/
  | keystoneFrame (p : Fin 2) (fr : EthFrame) (ns : Nat)
  /-- KEYSTONE_TAKEOVER, R275: The successor missing keystone words for TAKEOVER courses becomes acting keystone and suspends the job. -/
  | keystoneTakeover
  /-- PERST_DEASSERT, R335: PERST_N deasserted with power-good starts boot in stage ROM. -/
  | perstDeassert (flashOk fuseBad : Bool)
  /-- PERST_ASSERT, R346: PERST_N asserted restarts boot from ROM and loses the image store and firmware state. -/
  | perstAssert
  /-- LOAD, R344: Mailbox command LOAD fetches a runtime image from host memory. -/
  | load (q : Requester)
  /-- LOAD_LOADER, R338: Mailbox command LOAD_LOADER in RECOVERY fetches and verifies a loader from the host. -/
  | loadLoader (q : Requester)
  /-- IMAGE_FETCH_DONE, R344: The last byte of a fetched image arrives, or the fetch fails with FETCH_FAILED. -/
  | imageFetchDone (data : Option (List Byte))
  /-- IMAGE_VERIFY_DONE, R341: Image verification ends, passing to VERIFIED or returning to OPEN with RESULT. -/
  | imageVerifyDone
  /-- RELEASE, R345: Mailbox command RELEASE samples the RWL fields and starts the runtime firmware. -/
  | release (q : Requester)
  /-- FW_START_DONE, R335: All six Helam processors reach ON and boot enters TRAINING. -/
  | fwStartDone (sup : BitVec 64)
  /-- TRAINING_DONE, R335: Every stack is ON or failed and boot enters CLEARING. -/
  | trainingDone
  /-- CLEARING_DONE, R335: Every partition of the layout is ON and boot enters NEGOTIATING. -/
  | clearingDone
  /-- LC_ADVANCE, R359: Service command LC_ADVANCE burns the bit of the target life-cycle state. -/
  | lcAdvance (q : Requester) (img : Option (List Byte))
  /-- REVOKE_SLOT, R362: Service command REVOKE_SLOT burns the REVOKED bit of a root-key slot. -/
  | revokeSlot (q : Requester) (img : Option (List Byte))
  /-- SVN_ADVANCE, R362: Service command SVN_ADVANCE burns SVN bits up to ARG32. -/
  | svnAdvance (q : Requester) (img : Option (List Byte))
  /-- BURN_CANDIDATES, R361: Service command BURN_CANDIDATES burns pending fuse candidates and performs stack post-package repair. -/
  | burnCandidates (q : Requester) (img : Option (List Byte))
  /-- FLASH_WRITE, R361: Service command FLASH_WRITE erases and writes a side-flash directory entry with a checked payload. -/
  | flashWrite (q : Requester) (img : Option (List Byte)) (flashOk : Bool)
  /-- DEBUG_UNLOCK, R361: Service command DEBUG_UNLOCK opens the debug port in PROVISIONED until reset. -/
  | debugUnlock (q : Requester) (img : Option (List Byte))
  /-- FUSE_BURN, R357: Helam processor 0 burns, reads back and re-burns requested fuse bits, succeeding or ending BURN_FAILED. -/
  | fuseBurn (mask : BitVec 1024)
  /-- FACTORY_TEST_COMMAND, R359: A factory test port request makes a slot VALID or performs a life-cycle transition it may request. -/
  | factoryTestCommand (cmd : FactoryCmd)
  /-- PROC_RESTART, R349: A write of FW_PROC_RESTART by the PF restarts a Helam processor as a watchdog restart would. -/
  | procRestart (q : Requester) (k : Fin 6)
  /-- WATCHDOG_EXPIRY, R350: A Helam processor's watchdog reaches zero and hardware restarts the processor. -/
  | watchdogExpiry (k : Fin 6) (ns : Nat)
  /-- LOG_ENABLE, R354: A write of FW_LOG_CTRL.EN = 1 starts log records with SEQ from 1. -/
  | logEnable (q : Requester) (v : BitVec 32)
  /-- LOG_RECORD_COMMIT, R354: A log record is committed with the next SEQ and written to its slot in the host log ring. -/
  | logRecordCommit (proc : Fin 8) (level : Fin 5) (code : BitVec 16) (a0 a1 : BitVec 64) (dropped : Bool)
  /-- TAMPER_DETECT, R364: A tamper detector asserts, starting a vault wipe, latching its bit and ending SPDM sessions. -/
  | tamperDetect (live : BitVec 6)
  /-- DEBUG_PORT_ACCESS, R425: A rising TCK with TRST_N high at J4 is a debug access, a tamper event in DEPLOYED. -/
  | debugPortAccess
  /-- GET_MEASUREMENTS, R366: An SPDM GET_MEASUREMENTS request is answered with the measurement blocks. -/
  | getMeasurements (via : SpdmVia) (index : BitVec 8) (sign : Bool)
  /-- GET_CERTIFICATE, R365: An SPDM GET_CERTIFICATE request returns the identity chain of slot 0, or an error outside provisioned states. -/
  | getCertificate (via : SpdmVia) (slot : BitVec 8) (off len : BitVec 16)
  /-- CHALLENGE, R365: An SPDM CHALLENGE is answered with a signature by the identity key, or an error. -/
  | challenge (via : SpdmVia) (slot : BitVec 8) (nonce : BitVec 256)
  /-- KEY_EXCHANGE, R367: An SPDM KEY_EXCHANGE opens a secured session with keys in a sound vault of the partition, or fails. -/
  | keyExchange (via : SpdmVia) (p : Fin 5)
  /-- IDE_KEY_PROGRAM, R365: Within a secured session, IDE keys are programmed for a stream. -/
  | ideKeyProgram (via : SpdmVia) (p stream : Fin 5)
  /-- CAP_WRITE, R373: A write of PWR_CAP sets the host cap or is refused with CAP_REFUSED. -/
  | capWrite (q : Requester) (v : BitVec 32)
  /-- REQ_OP_WRITE, R370: A write of REQ_OP changes a die's requested operating point and its running point. -/
  | reqOpWrite (q : Requester) (die : Fin 4) (v : BitVec 32)
  /-- OP_RAMP_DONE, R371: A voltage ramp and clock switch end and any newer running point is taken up. -/
  | opRampDone (die : Fin 4)
  /-- DUTY_PERIOD_END, R375: At the end of each 100 µs period the duty loop lowers or raises the issue duty. -/
  | dutyPeriodEnd (mean : Nat) (lost : List (Fin 4 × Nat))
  /-- POWER_WINDOW_END, R391: At the end of each 1 ms window energy is settled to contexts, partitions and the module. -/
  | powerWindowEnd (eIn eIdle : Nat) (acts : List CtxActivity) (other : Activity) (stretch : List (Fin 4 × Nat × Nat))
  /-- DROOP_TRIP, R381: The supply falling below the droop threshold doubles the die's clock period. -/
  | droopTrip (die : Fin 4)
  /-- DROOP_RECOVER, R381: After at least 32 stretched cycles with the supply back above threshold plus 10 mV, the clock period returns. -/
  | droopRecover (die : Fin 4) (cycles : Nat)
  /-- THERMAL_SENSOR_READ, R384: Core, hotspot and I/O-die sensors are read every 100 µs. -/
  | thermalSensorRead (t : ThermalRead)
  /-- THERMAL_LOOP, R385: Every 10 ms Helam processor 4 lowers or raises THERM_OP from the die's readings. -/
  | thermalLoop
  /-- MACRO_SLICE_START, R400: Every MACRO_MS the health processor starts a slice of the next ready macro of each core. -/
  | macroSliceStart (n : Fin 256)
  /-- SLICE_COPY_DONE, R401: A slice's copy of both banks into the spare ends. -/
  | sliceCopyDone (n : Fin 256) (lost : List (Fin 2 × Fin 512))
  /-- SLICE_TEST_DONE, R404: March C− and the logic check end on the borrowed macro, classifying any failure. -/
  | sliceTestDone (n : Fin 256) (fails : List (Bool × Fin 2 × Fin 512 × Fin 258 × Bool))
  /-- SLICE_COPY_BACK_DONE, R401: The copy back from the spare into the macro ends. -/
  | sliceCopyBackDone (n : Fin 256) (lost : List (Fin 2 × Fin 512))
  /-- BANK_SLICE_START, R405: Every BANK_MS a scratchpad and a die-pool bank are borrowed and marched. -/
  | bankSliceStart (arr : BankArray) (bank : Fin 192)
  /-- KNOWN_SUM_CHECK, R412: In an idle cycle a macro's even or odd rows are driven and the signature compared with its reference. -/
  | knownSumCheck (n : Fin 256) (m : Fin 64) (odd : Fin 2) (idle : Bool) (found : Option (BitVec 32))
  /-- TE_MACRO_BANK, R415: A test-engine command with TARGET macro bank runs its algorithm through a slice. -/
  | teMacroBank (factory : Bool) (cmd : BitVec 64)
  /-- TE_SCRATCHPAD_BANK, R415: A test-engine command with TARGET scratchpad bank runs its algorithm through a borrow. -/
  | teScratchpadBank (factory : Bool) (cmd : BitVec 64)
  /-- TE_DIE_POOL_BANK, R415: A test-engine command with TARGET die-pool bank runs its algorithm through a borrow. -/
  | teDiePoolBank (factory : Bool) (cmd : BitVec 64)
  /-- TE_STACK_UNITS, R415: A test-engine command with TARGET stack units tests through the IEEE 1500 port while the wall is OFF. -/
  | teStackUnits (factory : Bool) (cmd : BitVec 64)
  /-- TE_LEVEL0_COMMAND, R415: A test-engine command with TARGET level-0 command drives a level-0 command. -/
  | teLevel0Command (factory : Bool) (cmd : BitVec 64)
  /-- AUX_POWER_UP, R428: 3V3_AUX comes within limits, the auxiliary domain starts and the straps are sampled. -/
  | auxPowerUp (straps : Fin 4)
  /-- AUX_POWER_LOSS, R442: 3V3_AUX is removed and main rails and auxiliary records are lost. -/
  | auxPowerLoss
  /-- PWR_EN_ASSERT, R428: PWR_EN asserted with VIN in range brings up the internal rails. -/
  | pwrEnAssert
  /-- RAIL_UP_DONE, R428: Every internal rail is good and PWRGD is asserted. -/
  | railUpDone
  /-- RAIL_UP_TIMEOUT, R428: Rails not good within 40 ms are removed, FAULT_N is asserted and a stage fault recorded. -/
  | railUpTimeout
  /-- PWR_EN_DEASSERT, R429: PWR_EN falling deasserts PWRGD and removes the rails in reverse order. -/
  | pwrEnDeassert
  /-- VIN_UNDERVOLTAGE, R430: VIN below 42 V for 200 µs removes the rails and records the cause. -/
  | vinUndervoltage
  /-- VIN_OVERVOLTAGE, R430: VIN above 62 V for 10 µs removes the rails and records the cause. -/
  | vinOvervoltage
  /-- OVERCURRENT, R430: VIN current above its limit for 50 µs removes the rails and records the cause. -/
  | overcurrent
  /-- STAGE_FAULT, R430: An internal rail out of limits for 20 µs removes the rails and records the cause. -/
  | stageFault
  /-- FAULT_RELEASE, R430: PWR_EN low for 100 ms releases THERMTRIP_N and FAULT_N. -/
  | faultRelease
  /-- SET_ENDPOINT_ID, R437: An MCTP Set Endpoint ID from the bus owner sets the endpoint's EID. -/
  | setEndpointId (eid : BitVec 8)
  /-- GET_SENSOR_READING, R438: A PLDM numeric sensor read returns the reading, or unavailable in standby. -/
  | getSensorReading (id : BitVec 16)
  /-- GET_STATE_SENSOR_READINGS, R439: A PLDM state sensor read returns the sensor's state. -/
  | getStateSensorReadings (id : BitVec 16)
  /-- SET_NUMERIC_EFFECTER_VALUE, R440: A PLDM set of effecter 64 writes the sideband cap or is refused. -/
  | setNumericEffecterValue (id : BitVec 16) (v : BitVec 32)
  /-- GET_NUMERIC_EFFECTER_VALUE, R440: A PLDM read of effecter 64 returns the sideband cap. -/
  | getNumericEffecterValue (id : BitVec 16)
  /-- SET_EVENT_RECEIVER, R441: A PLDM SetEventReceiver names the receiver of platform events. -/
  | setEventReceiver (eid : BitVec 8)
  /-- POLL_FOR_PLATFORM_EVENT, R441: A PLDM PollForPlatformEventMessage delivers a waiting platform event. -/
  | pollForPlatformEvent
  /-- PLATFORM_EVENT_SEND, R441: A waiting platform event is sent to the named receiver and SMBALERT_N follows the queue. -/
  | platformEventSend
  /-- PLDM_UNSUPPORTED, R436: An unsupported PLDM type or command is answered with ERROR_UNSUPPORTED_PLDM_CMD. -/
  | pldmUnsupported
  /-- SENSOR_REFRESH, R438: Every 100 ms the sideband sensors are refreshed and threshold crossings queue events. -/
  | sensorRefresh (inlet stage : BitVec 8) (vin current : BitVec 16)
  /-- CONFIGURATION_REQUEST, R292: A PCI Express configuration request from the host is answered with Configuration Request Retry Status before the loader runs or RECOVERY is entered, and normally afterwards. -/
  | configurationRequest (q : ConfigAccess)
  /-- PCIE_LINK_TRAINED, R292: The PCI Express link training started in ROM ends and HOST_LINK reports the trained generation, width and FLIT mode. -/
  | pcieLinkTrained (gen : Fin 8) (width : Fin 32) (flit : Bool)
  /-- VIN_RISE, R428: VIN rises above the 43.5 V undervoltage threshold while PWR_EN is asserted, and the power stage then acts on PWR_EN and brings up the internal rails. -/
  | vinRise
  /-- GPTP_MESSAGE, R242: An IEEE 802.1AS Announce or peer-delay message received on a port drives slave-port selection by the best master clock algorithm and the port's link-delay measurement. -/
  | gptpMessage (p : Fin 2) (fr : AsFrames) (m : GptpMessage)
  /-- BANK_SLICE_TEST_DONE, R405: The march of R210 on a borrowed scratchpad or die-pool bank ends in its Redirected phase, failures are classified, and the copy back begins. -/
  | bankSliceTestDone (arr : BankArray) (spare : Fin 4) (fail : Option (Fin 4096 × Fin 576 × Bool))
  /-- TE_COMMAND_END, R415: A test-engine command ends, at its first failure under STOP_ON_FAIL or after COUNT elements, and sets DONE, FAIL, FAILS and TE_DONE. -/
  | teCommandEnd (fails : List (Nat × Nat × BitVec 32 × BitVec 32))
  /-- BOOT_CLEAR_DONE, R235: The SRAM boot clear and the stack clear of stage CLEARING end, CLEARED is set, and Helam processor 0 enables the partitions and cores. -/
  | bootClearDone (cells : List (BankArray × Fin 196 × Fin 4096 × Fin 576)) (bad : List (SwUnit × Bool))
  deriving DecidableEq, Repr

end Sys2Proof
end

