-- ==== Sys2Proof/Machine/Base.lean ====
section
/-! DEFINITION. Sys2Proof/Machine/Base.lean: sparse tables, bit fields of numbers, little-endian bytes (R4), index walks. -/
namespace Sys2Proof.Machine

open Sys2Proof

/-- The value at key `k` of a table, if it is listed. -/
def tfind {α : Type} : Table α → Nat → Option α
  | [], _ => none
  | (k', v) :: t, k => if k' = k then some v else tfind t k

/-- Set the value at key `k`, keeping the keys in rising order. -/
def tset {α : Type} : Table α → Nat → α → Table α
  | [], k, v => [(k, v)]
  | (k', v') :: t, k, v =>
    if k < k' then (k, v) :: (k', v') :: t
    else if k = k' then (k, v) :: t
    else (k', v') :: tset t k v

/-- Take key `k` out of a table. -/
def terase {α : Type} : Table α → Nat → Table α
  | [], _ => []
  | (k', v') :: t, k => if k' = k then terase t k else (k', v') :: terase t k

/-- The value at key `k`, or `dflt` where none is listed. -/
def tget {α : Type} (dflt : α) (t : Table α) (k : Nat) : α := (tfind t k).getD dflt

/-- Change the value at key `k`, which is `dflt` where none is listed. -/
def tmod {α : Type} (dflt : α) (t : Table α) (k : Nat) (f : α → α) : Table α := tset t k (f (tget dflt t k))

/-- Bits `lo` to `lo + len - 1` of a number (R4). -/
def bitsAt (w lo len : Nat) : Nat := w / 2 ^ lo % 2 ^ len

/-- Bits `lo` to `lo + len - 1` of byte `b` of a little-endian structure held as one number (R4). -/
def fld (w b lo len : Nat) : Nat := bitsAt w (8 * b + lo) len

/-- The number that a list of bytes spells, least significant byte first (R4). -/
def leNat : List Byte → Nat
  | [] => 0
  | b :: t => b.toNat + 256 * leNat t

/-- The `n` least significant bytes of a number, least significant first (R4). -/
def leBytes : Nat → Nat → List Byte
  | 0, _ => []
  | n + 1, w => BitVec.ofNat 8 w :: leBytes n (w / 256)

/-- The number of bits of a number: 0 for 0. -/
def bitLen (n : Nat) : Nat := if n = 0 then 0 else Nat.log2 n + 1

/-- The ceiling of a quotient. -/
def ceilDiv (a b : Nat) : Nat := (a + b - 1) / b

/-- Round up to a multiple. -/
def roundUp (a b : Nat) : Nat := ceilDiv a b * b

/-- A number as one bit. -/
def b01 (b : Bool) : Nat := if b then 1 else 0

/-- The two's complement value of the `b` low bits of a code. -/
def toSigned (b c : Nat) : Int :=
  if b = 0 then 0 else if c % 2 ^ b < 2 ^ (b - 1) then ((c % 2 ^ b : Nat) : Int) else ((c % 2 ^ b : Nat) : Int) - (2 ^ b : Nat)

/-- The `b`-bit two's complement code of an integer. -/
def ofSigned (b : Nat) (v : Int) : Nat := (v % ((2 ^ b : Nat) : Int)).toNat

/-- Saturating increase of a count field to its largest value. -/
def satField (len n : Nat) : Nat := min n (2 ^ len - 1)

/-- The three nested index walks of a loop-order code (R143): positions (m, n, k), outermost dimension first. -/
def walkOrder (code cm cn ck : Nat) : List (Nat × Nat × Nat) :=
  let ms := List.range cm
  let ns := List.range cn
  let ks := List.range ck
  match code with
  | 0 => ms.flatMap fun m => ns.flatMap fun n => ks.map fun k => (m, n, k)
  | 1 => ms.flatMap fun m => ks.flatMap fun k => ns.map fun n => (m, n, k)
  | 2 => ns.flatMap fun n => ms.flatMap fun m => ks.map fun k => (m, n, k)
  | 3 => ns.flatMap fun n => ks.flatMap fun k => ms.map fun m => (m, n, k)
  | 4 => ks.flatMap fun k => ms.flatMap fun m => ns.map fun n => (m, n, k)
  | 5 => ks.flatMap fun k => ns.flatMap fun n => ms.map fun m => (m, n, k)
  | _ => []

/-- Sum of a list of integers. -/
def isum : List Int → Int
  | [] => 0
  | x :: t => x + isum t

/-- Sum of a list of numbers. -/
def nsum : List Nat → Nat
  | [] => 0
  | x :: t => x + nsum t

/-- Whether a list of numbers has no repeats. -/
def distinct : List Nat → Bool
  | [] => true
  | x :: t => !t.contains x && distinct t

/-- Split a list into consecutive pieces of `n` elements (`fuel` bounds the count of pieces). -/
def chunksOf {α : Type} (n : Nat) : Nat → List α → List (List α)
  | 0, _ => []
  | _ + 1, [] => []
  | f + 1, l => l.take n :: chunksOf n f (l.drop n)

/-- Element `i` of a list, or `d` beyond its end. -/
def nth {α : Type} (d : α) : List α → Nat → α
  | [], _ => d
  | x :: _, 0 => x
  | _ :: t, i + 1 => nth d t i

/-- Replace element `i` of a list; a position beyond the end changes nothing. -/
def setNth {α : Type} : List α → Nat → α → List α
  | [], _, _ => []
  | _ :: t, 0, v => v :: t
  | x :: t, i + 1, v => x :: setNth t i v

end Sys2Proof.Machine
end

