-- ==== Sys2Proof/Config.lean ====
section
/-! DEFINITION. Sys2Proof/Config.lean: what one part fixes and the spec leaves open: fused values that differ from part to part, and free values.
Every constant here is opaque: no proof can see a value of it, so a statement holds for every value. -/
namespace Sys2Proof.Config

/-- A fresh unconstrained word for the `n`-th free value a step takes (random nonces, R7 and R361). -/
opaque freeWord : Nat → BitVec 64

/-- A byte of a stack that has been powered down since it was last written: its seed, and its place in the stack (R215, log entry 266: DESIGN CHOICE, safe). -/
opaque lostByte : Nat → Nat → BitVec 8

/-- The code streamed for an element of a non-finite F19 activation group: R90 gives the group an exponent byte and no aligned
values (log entry 12: DESIGN CHOICE, safe). -/
opaque f19NonFiniteActivation : BitVec 19 → BitVec 12

/-- The magnitude and sign (bit 16) written for an element of a non-finite F19 weight group (R90, log entry 12: DESIGN CHOICE, safe). -/
opaque f19NonFiniteWeight : BitVec 19 → BitVec 17

/-! ### The fuses of a part (R356, log entry 61: DESIGN CHOICE, safe) -/

/-- The life-cycle bits (R358). -/
opaque fuseLifeCycle : BitVec 5
/-- The hash of a root-key slot, byte 0 lowest. -/
opaque fuseHash : Fin 4 → BitVec 256
opaque fuseValid : BitVec 4
opaque fuseRevoked : BitVec 4
/-- Burned SVN bits (R362). -/
opaque fuseSvn : Fin 65
/-- The identity scalar and public key (R363). -/
opaque fuseScalar : BitVec 256
opaque fuseKey : BitVec 512
opaque fuseSerial : BitVec 64
/-- Whether the part is a P24C-1050-B0, whose ceiling is 1,050 W; else 900 W (R1). -/
opaque fuseHigh : Bool
/-- The MAC address of a port (R356). -/
opaque fuseMac : Fin 2 → BitVec 48
/-- The holdover rate of a part in ns per second, at most 10 (R244). -/
opaque fuseHoldover : Fin 11
/-- The margin of a part in mV above 60, to 140 mV (R54). -/
opaque fuseMargin : Fin 81
/-- The voltage of an operating point in mV above the lowest that R369 allows it, within 60 mV. -/
opaque fuseVolt : Fin 8 → Fin 61
/-- Single-cell words whose parity failed at the shadow latch. -/
opaque fuseParity : BitVec 16
/-- Repair entries not yet burned (FUSE_REPAIR). -/
opaque fuseFree : BitVec 14

/-- SHA-256 of the manufacturing key that the ROM holds (R341), and of the ROM (R366). -/
opaque manufacturingHash : List Byte
opaque romDigest : List Byte

/-- The contents of the side flash as shipped (R337). -/
opaque flashLoader : List Byte
opaque flashIdentity : List Byte
opaque flashConfig : List Byte

end Sys2Proof.Config
end

