-- ==== Sys2Proof/Machine/Regs.lean ====
section
/-! DEFINITION. Sys2Proof/Machine/Regs.lean: every BAR0 register of the spec: a named reference to each of its fields (place by R12,
width, reset value by R7), and the register map with the access type (R5) of each field. Bits in no field are the reserved bits of R8. -/
namespace Sys2Proof.Machine

/-- The access types of R5. -/
inductive Access where
  | ro | rw | rwl | wo | w1c | w1s | rc
  deriving DecidableEq, Repr

/-- A field of a register: the offset of the register in BAR0, the field's lowest bit and width, and its reset value (R4, R7, R12).
A fuse-loaded, random or kept field carries 0 here: `State.reset` and every fundamental reset list its value. -/
structure Fld where
  off : Nat
  lo : Nat
  len : Nat
  rst : Nat
  deriving DecidableEq, Repr

/-- The names of the registers, as the spec spells them; a register that repeats has one name (R12). -/
inductive Reg where
  | HOST_ID | HOST_LINK | HOST_SETUP_LOCK | HOST_PART_CFG | HOST_PART_STATE | HOST_FN_CFG
  | HOST_FN_BAR4 | HOST_CTX_STAGE | HOST_CTX_COMMIT | HOST_CTX_COMMIT_STATUS | HOST_QS_CFG | HOST_QS_STATUS
  | HOST_CNT_ACCESS_ERR | HOST_CNT_DOORBELLS | HOST_CNT_DB_COALESCED | HOST_CNT_SHADOW_READS | HOST_CNT_DESC_FETCHED | HOST_CNT_DESC_COMPLETED
  | HOST_CNT_ADMISSIONS | HOST_CNT_EVICTIONS | HOST_CNT_BUSY | HOST_CNT_DMA_TRANSIENT | HOST_CNT_DMA_LASTING | HOST_CNT_BAR4_DENIED
  | HOST_CNT_MSIX | FW_MBOX_STATUS | FW_MBOX_CMD | FW_MBOX_IMAGE_ADDR | FW_MBOX_IMAGE_BYTES | FW_FEAT_REQ
  | FW_FEAT_SUP | FW_FEAT_ON | FW_VERSION | FW_SVC_NONCE | FW_EVENT | FW_EVENT_MASK
  | FW_LOG_BASE | FW_LOG_CTRL | FW_LOG_SEQ | FW_LOG_CNT_DROPPED | FW_PROC_STATE | FW_PROC_STATUS
  | FW_PROC_WDT | FW_PROC_RESTART | FW_TRACE_MASK | FW_PROC_CNT_RESTARTS | FW_PROC_CNT_WDT | LCS_STATE
  | LCS_TAMPER | LCS_CNT_TAMPER | FUSE_SKU | FUSE_SERIAL | FUSE_ROOT_STATUS | FUSE_SVN
  | FUSE_TIME | FUSE_REPAIR | FUSE_STATUS | FUSE_CNT_BURNS | FUSE_ROOT_HASH | FUSE_ID_PUBKEY
  | PWR_CAP | PWR_CAP_SIDEBAND | PWR_CAP_EFFECTIVE | PWR_STATUS | PWR_GOV_CFG | PWR_CNT_OVER_WINDOWS
  | PWR_MODULE_ENERGY | PWR_PART_ENERGY | PWR_OPP | PWR_DIE_REQ | PWR_DIE_OP | PWR_DIE_PARK
  | PWR_DIE_DROOP_CFG | PWR_DIE_STAGGER | PWR_DIE_POWER | PWR_DIE_CNT_DROOP | PWR_DIE_CNT_STRETCH | PWR_DIE_CNT_OP_CHANGES
  | PWR_DIE_CNT_DUTY_LOST | PWR_DIE_CNT_PARKED | PWR_CTX_ENERGY | THM_LIMITS | THM_LIMITS2 | THM_BOARD
  | THM_TRIP | THM_CNT_THROTTLE | THM_CNT_HOLD | THM_DIE | THM_CORE_TEMP | HLT_SLICE_CFG
  | HLT_CHECK_CFG | HLT_CHECK_STATUS | HLT_EVENT | HLT_EVENT_MASK | HLT_FAIL_INDEX | HLT_WEIGHT_LOST
  | HLT_CNT_SLICES | HLT_CNT_SLICE_ABANDONED | HLT_CNT_SLICE_TRANSIENT | HLT_CNT_SOFT_REPAIRS | HLT_CNT_ROWS_REBUILT | HLT_CNT_WEIGHT_LOST
  | HLT_CNT_KS_CHECKS | HLT_CNT_KS_SKIPPED | HLT_CNT_KS_MISMATCH | HLT_CNT_RANGE_BLOCKS | HLT_CNT_OUTLIERS | HLT_CNT_ALARMS
  | HLT_CNT_FAIL_DROPPED | HLT_TE_CMD | HLT_TE_PATTERN | HLT_TE_START | HLT_TE_STATUS | HLT_FAIL
  | HLT_CAND | HLT_DIE | HLT_CORE_SLICE | HLT_CORE_PASS | HLT_KS_REF_A | HLT_KS_REF_B
  | CTX_ENTRY | CTX_STATE | CTX_PROGRESS | CTX_STATUS | CTX_SHADOW_SEEN | CTX_RESET
  | CTX_CNT_DESC | CTX_CNT_DOORBELL | CORE_ID | CORE_LINK | CORE_STATE | CORE_ACC_STATUS
  | CORE_CNT_CHUNKS | CORE_CNT_CHUNK_SAT | CORE_CNT_SPILLS | CORE_CNT_RESUMES | CORE_CNT_REPLAYS | CORE_CNT_CHAIN_WAIT
  | CORE_CNT_SCALE_WAIT | FAB_PORT_STATE | FAB_PORT_LINK | FAB_PORT_MAC | FAB_PORT_PTP | FAB_PORT_CNT_TX_FRAMES
  | FAB_PORT_CNT_RX_FRAMES | FAB_PORT_CNT_TX_BYTES | FAB_PORT_CNT_RX_BYTES | FAB_PORT_CNT_FCS_ERR | FAB_PORT_CNT_PCRC_ERR | FAB_PORT_CNT_OVERSIZE
  | FAB_PORT_CNT_DROPPED | FAB_PORT_CNT_FEC_CORR | FAB_PORT_CNT_FEC_UNCORR | FAB_PORT_CNT_RETRAIN | FAB_CFG | FAB_PTP_CFG
  | FAB_TIME | FAB_TIME_STATUS | FAB_TIME_LIMIT | FAB_PPS_OFFSET | FAB_CNT_SLAVE_MOVES | FAB_CNT_PPS_MISMATCH
  | CRS_COURSE | CRS_LEN | CRS_IDLE_LEN | CRS_ANCHOR_COURSE | CRS_ANCHOR_TIME | CRS_JOB
  | CRS_PACE | CRS_PACE_EFFECTIVE | CRS_SLACK | CRS_GUARD | CRS_PLAN | CRS_PLAN_STATUS
  | CRS_PLAN_SWAP | CRS_CKPT_DONE | CRS_CKPT_COMMITTED | CRS_NOTICE | CRS_CNT_COURSES | CRS_CNT_SLOTS_SENT
  | CRS_CNT_SLOTS_RECEIVED | CRS_CNT_SLOT_TRANSIENT | CRS_CNT_SLOT_LASTING | CRS_CNT_SLOT_LATE | CRS_CNT_REPAIR_FULL | CRS_CNT_ACK_LATE
  | CRS_CNT_RECV_DUPLICATE | CRS_CNT_OVERRUNS | CRS_CNT_PACE_REQUESTS | CRS_CNT_PACE_CHANGES | CRS_CNT_STATUS_MISSED | CRS_CNT_KEYSTONE_MISSED
  | CRS_CNT_SUSPENSIONS | CRS_CNT_FAULTS_SUSPENDED | SEQ_MODE | SEQ_OP | SEQ_TILE | SEQ_ORDER
  | SEQ_EXT | SEQ_L0_CMD | SEQ_L0_STATUS | SEQ_CNT_TILES | SEQ_CNT_BLOCKS | SEQ_CNT_LOADS
  | SEQ_CNT_PAD_VECTORS | SEQ_CNT_HALO_LOCAL | SEQ_CNT_HALO_HIT | SEQ_CNT_HALO_MISS | SEQ_CNT_HALO_DEPOSIT | CIM_STATE
  | CIM_MAP | CIM_MODE | CIM_BANK | CIM_WSID | CIM_WRITE_RESULT | CIM_BANK_A_STATE
  | CIM_BANK_B_STATE | CIM_CNT_PLANES | CIM_CNT_SKIPPED | CIM_CNT_SPLITS | CIM_CNT_RETRY | CIM_CNT_MARGINAL
  | CIM_CNT_LATE_SWAP | CIM_CNT_FULLSCALE | CIM_PV_TIME | CIM_PV_MARGIN | CIM_CORE_BANKMAP | CIM_CORE_VALIDMAP
  | DECK_HOME | DECK_POLICY | DECK_HOME_CNT_ATOMICS | DECK_HOME_CNT_CONFLICT | DECK_HAND | DECK_GEN
  | DECK_CNT_DRAWS | DECK_CNT_EMPTY | DECK_CNT_STEALS | DECK_CNT_LOST | DECK_CNT_RETURNS | DECK_CNT_WAIT
  | POOL_SP_STATUS | POOL_SP_COLREP | POOL_SP_ERR | POOL_SP_CNT_CONFLICT | POOL_SP_CNT_CORRECTED | POOL_SP_CNT_TRANSIENT
  | POOL_SP_CNT_LASTING | POOL_SP_CNT_RMW | POOL_SP_CNT_DENIED | POOL_DP_STATUS | POOL_DP_SPARE | POOL_DP_ERR
  | POOL_DP_SCRUB | POOL_DP_COLREP | POOL_DP_CNT_CONFLICT | POOL_DP_CNT_CORRECTED | POOL_DP_CNT_TRANSIENT | POOL_DP_CNT_LASTING
  | POOL_DP_CNT_RMW | POOL_DP_CNT_ATOMICS | POOL_DP_CNT_DENIED | POOL_DP_CNT_SCRUBBED | POOL_VAULT_STATUS | POOL_VAULT_WIPE
  | MEM_STACK_STATE | MEM_STACK_INFO | MEM_STACK_TEMP | MEM_STACK_ERR | MEM_STACK_CNT_CORRECTED | MEM_STACK_CNT_TRANSIENT
  | MEM_STACK_CNT_LASTING | MEM_STACK_CNT_RECONSTRUCTED | MEM_STACK_CNT_LINK_RETRY | MEM_STACK_CNT_ONDIE | MEM_STACK_CNT_SCRUBBED | MEM_STACK_CNT_READ_UNITS
  | MEM_STACK_CNT_WRITE_UNITS | MEM_STACK_CNT_DENIED | MEM_WALL_CFG | MEM_WALL_STATUS | MEM_WALL_MAP | MEM_WALL_REBUILD
  | MEM_WALL_CNT_FULL_STRIPE | MEM_WALL_CNT_PARTIAL | MEM_WALL_CNT_ASM_TIMEOUT | MEM_WALL_CNT_ASM_EVICT | MEM_WALL_CNT_LOCK_WAIT | MEM_WALL_CNT_RECON_READS
  | MEM_WALL_CNT_REBUILT | MEM_WALL_CNT_UNCORRECTABLE | MEM_CLEAR | MEM_ASM_CFG | MEM_SCRUB
  deriving DecidableEq

abbrev F.HOST_ID_DEVICE : Fld := ⟨0x0000000, 0, 16, 576⟩
abbrev F.HOST_ID_STEPPING : Fld := ⟨0x0000000, 16, 8, 176⟩
abbrev F.HOST_LINK_GEN : Fld := ⟨0x0000008, 0, 4, 0⟩
abbrev F.HOST_LINK_WIDTH : Fld := ⟨0x0000008, 4, 5, 0⟩
abbrev F.HOST_LINK_FLIT : Fld := ⟨0x0000008, 9, 1, 0⟩
abbrev F.HOST_LINK_IDE_LINK : Fld := ⟨0x0000008, 10, 1, 0⟩
abbrev F.HOST_LINK_IDE_SEL : Fld := ⟨0x0000008, 11, 3, 0⟩
abbrev F.HOST_SETUP_LOCK_LOCKED : Fld := ⟨0x0000010, 0, 1, 0⟩
abbrev F.HOST_PART_CFG_LAYOUT : Fld := ⟨0x0000018, 0, 2, 0⟩
abbrev F.HOST_PART_STATE_EN (a : Nat) : Fld := ⟨0x0000100 + 0x8 * a, 0, 1, 0⟩
abbrev F.HOST_PART_STATE_STATE (a : Nat) : Fld := ⟨0x0000100 + 0x8 * a, 2, 2, 0⟩
abbrev F.HOST_PART_STATE_ENABLE_PENDING (a : Nat) : Fld := ⟨0x0000100 + 0x8 * a, 4, 1, 0⟩
abbrev F.HOST_PART_STATE_HELD (a : Nat) : Fld := ⟨0x0000100 + 0x8 * a, 5, 1, 0⟩
abbrev F.HOST_PART_STATE_START_FAULT (a : Nat) : Fld := ⟨0x0000100 + 0x8 * a, 6, 1, 0⟩
abbrev F.HOST_PART_STATE_HOLD_CAUSE (a : Nat) : Fld := ⟨0x0000100 + 0x8 * a, 8, 3, 0⟩
abbrev F.HOST_PART_STATE_STARTS (a : Nat) : Fld := ⟨0x0000100 + 0x8 * a, 16, 16, 0⟩
abbrev F.HOST_FN_CFG_PARTITION (a : Nat) : Fld := ⟨0x0000200 + 0x8 * a, 0, 2, 0⟩
abbrev F.HOST_FN_CFG_CTX_FIRST (a : Nat) : Fld := ⟨0x0000200 + 0x8 * a, 8, 14, 0⟩
abbrev F.HOST_FN_CFG_CTX_COUNT (a : Nat) : Fld := ⟨0x0000200 + 0x8 * a, 32, 15, if a = 0 then 16384 else 0⟩
abbrev F.HOST_FN_BAR4_BASE (a : Nat) : Fld := ⟨0x0000400 + 0x8 * a, 0, 48, 0⟩
abbrev F.HOST_CTX_STAGE_DATA (a : Nat) : Fld := ⟨0x0001000 + 0x8 * a, 0, 64, 0⟩
abbrev F.HOST_CTX_COMMIT_CONTEXT : Fld := ⟨0x0001040, 0, 14, 0⟩
abbrev F.HOST_CTX_COMMIT_STATUS_RESULT : Fld := ⟨0x0001044, 0, 3, 0⟩
abbrev F.HOST_CTX_COMMIT_STATUS_CONTEXT : Fld := ⟨0x0001044, 16, 14, 0⟩
abbrev F.HOST_QS_CFG_BUSY_THRESHOLD : Fld := ⟨0x0002000, 0, 8, 32⟩
abbrev F.HOST_QS_CFG_IDLE_US : Fld := ⟨0x0002000, 8, 16, 100⟩
abbrev F.HOST_QS_STATUS_RESIDENT (a : Nat) : Fld := ⟨0x0002008 + 0x8 * a, 0, 11, 0⟩
abbrev F.HOST_QS_STATUS_PINNED (a : Nat) : Fld := ⟨0x0002008 + 0x8 * a, 11, 10, 0⟩
abbrev F.HOST_QS_STATUS_PENDING (a : Nat) : Fld := ⟨0x0002008 + 0x8 * a, 21, 14, 0⟩
abbrev F.HOST_QS_STATUS_BUSY_ACTIVE (a : Nat) : Fld := ⟨0x0002008 + 0x8 * a, 35, 1, 0⟩
abbrev F.HOST_QS_STATUS_SCHED_ON (a : Nat) : Fld := ⟨0x0002008 + 0x8 * a, 36, 1, 0⟩
abbrev F.HOST_CNT_ACCESS_ERR : Fld := ⟨0x0003000, 0, 64, 0⟩
abbrev F.HOST_CNT_DOORBELLS : Fld := ⟨0x0003008, 0, 64, 0⟩
abbrev F.HOST_CNT_DB_COALESCED : Fld := ⟨0x0003010, 0, 64, 0⟩
abbrev F.HOST_CNT_SHADOW_READS : Fld := ⟨0x0003018, 0, 64, 0⟩
abbrev F.HOST_CNT_DESC_FETCHED : Fld := ⟨0x0003020, 0, 64, 0⟩
abbrev F.HOST_CNT_DESC_COMPLETED : Fld := ⟨0x0003028, 0, 64, 0⟩
abbrev F.HOST_CNT_ADMISSIONS : Fld := ⟨0x0003030, 0, 64, 0⟩
abbrev F.HOST_CNT_EVICTIONS : Fld := ⟨0x0003038, 0, 64, 0⟩
abbrev F.HOST_CNT_BUSY : Fld := ⟨0x0003040, 0, 64, 0⟩
abbrev F.HOST_CNT_DMA_TRANSIENT : Fld := ⟨0x0003048, 0, 64, 0⟩
abbrev F.HOST_CNT_DMA_LASTING : Fld := ⟨0x0003050, 0, 64, 0⟩
abbrev F.HOST_CNT_BAR4_DENIED : Fld := ⟨0x0003058, 0, 64, 0⟩
abbrev F.HOST_CNT_MSIX : Fld := ⟨0x0003060, 0, 64, 0⟩
abbrev F.FW_MBOX_STATUS_STAGE : Fld := ⟨0x0100000, 0, 4, 0⟩
abbrev F.FW_MBOX_STATUS_BUSY : Fld := ⟨0x0100000, 4, 1, 0⟩
abbrev F.FW_MBOX_STATUS_RESULT : Fld := ⟨0x0100000, 8, 8, 0⟩
abbrev F.FW_MBOX_CMD_CMD : Fld := ⟨0x0100004, 0, 8, 0⟩
abbrev F.FW_MBOX_IMAGE_ADDR_ADDR : Fld := ⟨0x0100008, 0, 64, 0⟩
abbrev F.FW_MBOX_IMAGE_BYTES_BYTES : Fld := ⟨0x0100010, 0, 32, 0⟩
abbrev F.FW_FEAT_REQ : Fld := ⟨0x0100018, 0, 64, 0⟩
abbrev F.FW_FEAT_SUP : Fld := ⟨0x0100020, 0, 64, 0⟩
abbrev F.FW_FEAT_ON : Fld := ⟨0x0100028, 0, 64, 0⟩
abbrev F.FW_VERSION_RUNTIME : Fld := ⟨0x0100030, 0, 32, 0⟩
abbrev F.FW_VERSION_LOADER : Fld := ⟨0x0100030, 32, 24, 0⟩
abbrev F.FW_VERSION_SVN : Fld := ⟨0x0100030, 56, 7, 0⟩
abbrev F.FW_SVC_NONCE_NONCE (a : Nat) : Fld := ⟨0x0100040 + 0x8 * a, 0, 64, 0⟩
abbrev F.FW_EVENT_PROC_RESTART : Fld := ⟨0x0100060, 0, 1, 0⟩
abbrev F.FW_EVENT_PROC_LASTING : Fld := ⟨0x0100060, 1, 1, 0⟩
abbrev F.FW_EVENT_TAMPER : Fld := ⟨0x0100060, 2, 1, 0⟩
abbrev F.FW_EVENT_LC_CHANGE : Fld := ⟨0x0100060, 3, 1, 0⟩
abbrev F.FW_EVENT_BOOT_DEGRADED : Fld := ⟨0x0100060, 4, 1, 0⟩
abbrev F.FW_EVENT_REVOKED : Fld := ⟨0x0100060, 5, 1, 0⟩
abbrev F.FW_EVENT_MASK_MASK : Fld := ⟨0x0100064, 0, 6, 0⟩
abbrev F.FW_LOG_BASE_BASE : Fld := ⟨0x0100080, 0, 64, 0⟩
abbrev F.FW_LOG_CTRL_EN : Fld := ⟨0x0100088, 0, 1, 0⟩
abbrev F.FW_LOG_CTRL_MIN_LEVEL : Fld := ⟨0x0100088, 1, 3, 3⟩
abbrev F.FW_LOG_CTRL_LOG2 : Fld := ⟨0x0100088, 8, 5, 8⟩
abbrev F.FW_LOG_SEQ : Fld := ⟨0x0100090, 0, 64, 0⟩
abbrev F.FW_LOG_CNT_DROPPED : Fld := ⟨0x0100098, 0, 64, 0⟩
abbrev F.FW_PROC_STATE_EN (a : Nat) : Fld := ⟨0x0101000 + 0x100 * a, 0, 1, 0⟩
abbrev F.FW_PROC_STATE_STATE (a : Nat) : Fld := ⟨0x0101000 + 0x100 * a, 2, 2, 0⟩
abbrev F.FW_PROC_STATE_ENABLE_PENDING (a : Nat) : Fld := ⟨0x0101000 + 0x100 * a, 4, 1, 0⟩
abbrev F.FW_PROC_STATE_HELD (a : Nat) : Fld := ⟨0x0101000 + 0x100 * a, 5, 1, 0⟩
abbrev F.FW_PROC_STATE_START_FAULT (a : Nat) : Fld := ⟨0x0101000 + 0x100 * a, 6, 1, 0⟩
abbrev F.FW_PROC_STATE_HOLD_CAUSE (a : Nat) : Fld := ⟨0x0101000 + 0x100 * a, 8, 3, 0⟩
abbrev F.FW_PROC_STATE_STARTS (a : Nat) : Fld := ⟨0x0101000 + 0x100 * a, 16, 16, 0⟩
abbrev F.FW_PROC_STATUS_LASTING (a : Nat) : Fld := ⟨0x0101004 + 0x100 * a, 0, 1, 0⟩
abbrev F.FW_PROC_STATUS_RECENT (a : Nat) : Fld := ⟨0x0101004 + 0x100 * a, 1, 3, 0⟩
abbrev F.FW_PROC_STATUS_HEARTBEAT (a : Nat) : Fld := ⟨0x0101004 + 0x100 * a, 16, 16, 0⟩
abbrev F.FW_PROC_WDT_TIMEOUT_MS (a : Nat) : Fld := ⟨0x0101008 + 0x100 * a, 0, 10, 100⟩
abbrev F.FW_PROC_RESTART_RESTART (a : Nat) : Fld := ⟨0x010100c + 0x100 * a, 0, 1, 0⟩
abbrev F.FW_TRACE_MASK_GROUPS (a : Nat) : Fld := ⟨0x0101010 + 0x100 * a, 0, 16, 0⟩
abbrev F.FW_PROC_CNT_RESTARTS (a : Nat) : Fld := ⟨0x0101040 + 0x100 * a, 0, 64, 0⟩
abbrev F.FW_PROC_CNT_WDT (a : Nat) : Fld := ⟨0x0101048 + 0x100 * a, 0, 64, 0⟩
abbrev F.LCS_STATE_STATE : Fld := ⟨0x0200000, 0, 3, 0⟩
abbrev F.LCS_STATE_CHANGING : Fld := ⟨0x0200000, 3, 1, 0⟩
abbrev F.LCS_STATE_TARGET : Fld := ⟨0x0200000, 4, 3, 0⟩
abbrev F.LCS_STATE_DEBUG_OPEN : Fld := ⟨0x0200000, 7, 1, 0⟩
abbrev F.LCS_TAMPER_LATCHED : Fld := ⟨0x0200008, 0, 6, 0⟩
abbrev F.LCS_TAMPER_LIVE : Fld := ⟨0x0200008, 8, 6, 0⟩
abbrev F.LCS_CNT_TAMPER : Fld := ⟨0x0200010, 0, 64, 0⟩
abbrev F.FUSE_SKU_CEILING_W : Fld := ⟨0x0280000, 0, 12, 0⟩
abbrev F.FUSE_SKU_STEPPING : Fld := ⟨0x0280000, 16, 8, 0⟩
abbrev F.FUSE_SERIAL_SERIAL : Fld := ⟨0x0280008, 0, 64, 0⟩
abbrev F.FUSE_ROOT_STATUS_VALID : Fld := ⟨0x0280010, 0, 4, 0⟩
abbrev F.FUSE_ROOT_STATUS_REVOKED : Fld := ⟨0x0280010, 4, 4, 0⟩
abbrev F.FUSE_SVN_SVN : Fld := ⟨0x0280018, 0, 7, 0⟩
abbrev F.FUSE_TIME_HOLDOVER_NS_S : Fld := ⟨0x0280020, 0, 4, 0⟩
abbrev F.FUSE_REPAIR_FREE : Fld := ⟨0x0280028, 0, 14, 0⟩
abbrev F.FUSE_REPAIR_CANDIDATES : Fld := ⟨0x0280028, 16, 14, 0⟩
abbrev F.FUSE_STATUS_BURNING : Fld := ⟨0x0280030, 0, 1, 0⟩
abbrev F.FUSE_STATUS_LAST_FAILED : Fld := ⟨0x0280030, 1, 1, 0⟩
abbrev F.FUSE_STATUS_FIELD : Fld := ⟨0x0280030, 8, 8, 0⟩
abbrev F.FUSE_STATUS_PARITY_ERR : Fld := ⟨0x0280030, 16, 16, 0⟩
abbrev F.FUSE_CNT_BURNS : Fld := ⟨0x0280038, 0, 64, 0⟩
abbrev F.FUSE_ROOT_HASH_HASH (a : Nat) (b : Nat) : Fld := ⟨0x0280100 + 0x20 * a + 0x8 * b, 0, 64, 0⟩
abbrev F.FUSE_ID_PUBKEY_KEY (a : Nat) : Fld := ⟨0x0280200 + 0x8 * a, 0, 64, 0⟩
abbrev F.PWR_CAP_CAP_W : Fld := ⟨0x0300000, 0, 11, 900⟩
abbrev F.PWR_CAP_SIDEBAND_CAP_W : Fld := ⟨0x0300004, 0, 11, 0⟩
abbrev F.PWR_CAP_EFFECTIVE_CAP_W : Fld := ⟨0x0300008, 0, 11, 900⟩
abbrev F.PWR_CAP_EFFECTIVE_TOL_W : Fld := ⟨0x0300008, 11, 8, 18⟩
abbrev F.PWR_STATUS_CAP_BELOW_FLOOR : Fld := ⟨0x0300010, 0, 1, 0⟩
abbrev F.PWR_STATUS_CAP_UNATTAINABLE : Fld := ⟨0x0300010, 1, 1, 0⟩
abbrev F.PWR_STATUS_CAP_REFUSED : Fld := ⟨0x0300010, 2, 1, 0⟩
abbrev F.PWR_STATUS_THERMAL_LIMITED : Fld := ⟨0x0300010, 3, 1, 0⟩
abbrev F.PWR_STATUS_DROOP_LIMITED : Fld := ⟨0x0300010, 4, 1, 0⟩
abbrev F.PWR_STATUS_THROTTLED : Fld := ⟨0x0300010, 5, 1, 0⟩
abbrev F.PWR_STATUS_GOV_ABSENT : Fld := ⟨0x0300010, 6, 1, 0⟩
abbrev F.PWR_STATUS_POWER_W : Fld := ⟨0x0300010, 16, 12, 0⟩
abbrev F.PWR_GOV_CFG_POLICY : Fld := ⟨0x0300014, 0, 1, 0⟩
abbrev F.PWR_GOV_CFG_PARK_UNIT : Fld := ⟨0x0300014, 4, 3, 2⟩
abbrev F.PWR_GOV_CFG_ROTATE : Fld := ⟨0x0300014, 7, 1, 1⟩
abbrev F.PWR_GOV_CFG_RAISE_WINDOWS : Fld := ⟨0x0300014, 8, 8, 20⟩
abbrev F.PWR_CNT_OVER_WINDOWS : Fld := ⟨0x0300040, 0, 64, 0⟩
abbrev F.PWR_MODULE_ENERGY : Fld := ⟨0x0300048, 0, 64, 0⟩
abbrev F.PWR_PART_ENERGY (a : Nat) : Fld := ⟨0x0300060 + 0x8 * a, 0, 64, 0⟩
abbrev F.PWR_OPP_FREQ_MHZ (a : Nat) : Fld := ⟨0x0300800 + 0x4 * a, 0, 12, 0⟩
abbrev F.PWR_OPP_VOLT_MV (a : Nat) : Fld := ⟨0x0300800 + 0x4 * a, 16, 11, 0⟩
abbrev F.PWR_DIE_REQ_REQ_OP (a : Nat) : Fld := ⟨0x0301000 + 0x100 * a, 0, 3, 5⟩
abbrev F.PWR_DIE_OP_OP (a : Nat) : Fld := ⟨0x0301004 + 0x100 * a, 0, 3, 0⟩
abbrev F.PWR_DIE_OP_CAP_OP (a : Nat) : Fld := ⟨0x0301004 + 0x100 * a, 3, 3, 7⟩
abbrev F.PWR_DIE_OP_THERM_OP (a : Nat) : Fld := ⟨0x0301004 + 0x100 * a, 6, 3, 7⟩
abbrev F.PWR_DIE_OP_TRANSITION (a : Nat) : Fld := ⟨0x0301004 + 0x100 * a, 9, 1, 0⟩
abbrev F.PWR_DIE_OP_DUTY (a : Nat) : Fld := ⟨0x0301004 + 0x100 * a, 10, 5, 16⟩
abbrev F.PWR_DIE_OP_VOLT_MV (a : Nat) : Fld := ⟨0x0301004 + 0x100 * a, 16, 11, 0⟩
abbrev F.PWR_DIE_PARK_COUNT (a : Nat) : Fld := ⟨0x0301008 + 0x100 * a, 0, 6, 0⟩
abbrev F.PWR_DIE_PARK_FIRST (a : Nat) : Fld := ⟨0x0301008 + 0x100 * a, 6, 6, 0⟩
abbrev F.PWR_DIE_DROOP_CFG_DROOP_MV (a : Nat) : Fld := ⟨0x030100c + 0x100 * a, 0, 8, 40⟩
abbrev F.PWR_DIE_STAGGER_MODE (a : Nat) : Fld := ⟨0x0301010 + 0x100 * a, 0, 2, 2⟩
abbrev F.PWR_DIE_STAGGER_THRESH (a : Nat) : Fld := ⟨0x0301010 + 0x100 * a, 4, 4, 2⟩
abbrev F.PWR_DIE_POWER_EST_W (a : Nat) : Fld := ⟨0x0301014 + 0x100 * a, 0, 12, 0⟩
abbrev F.PWR_DIE_CNT_DROOP (a : Nat) : Fld := ⟨0x0301040 + 0x100 * a, 0, 64, 0⟩
abbrev F.PWR_DIE_CNT_STRETCH (a : Nat) : Fld := ⟨0x0301048 + 0x100 * a, 0, 64, 0⟩
abbrev F.PWR_DIE_CNT_OP_CHANGES (a : Nat) : Fld := ⟨0x0301050 + 0x100 * a, 0, 64, 0⟩
abbrev F.PWR_DIE_CNT_DUTY_LOST (a : Nat) : Fld := ⟨0x0301058 + 0x100 * a, 0, 64, 0⟩
abbrev F.PWR_DIE_CNT_PARKED (a : Nat) : Fld := ⟨0x0301060 + 0x100 * a, 0, 64, 0⟩
abbrev F.PWR_CTX_ENERGY (a : Nat) : Fld := ⟨0x0310000 + 0x8 * a, 0, 64, 0⟩
abbrev F.THM_LIMITS_CORE_THROT_C : Fld := ⟨0x0400000, 0, 8, 95⟩
abbrev F.THM_LIMITS_CORE_HOLD_C : Fld := ⟨0x0400000, 8, 8, 105⟩
abbrev F.THM_LIMITS_TRIP_C : Fld := ⟨0x0400000, 16, 8, 115⟩
abbrev F.THM_LIMITS_STACK_THROT_C : Fld := ⟨0x0400000, 24, 8, 95⟩
abbrev F.THM_LIMITS2_STACK_TRIP_C : Fld := ⟨0x0400004, 0, 8, 105⟩
abbrev F.THM_LIMITS2_HYST_C : Fld := ⟨0x0400004, 8, 8, 3⟩
abbrev F.THM_LIMITS2_INLET_WARN_C : Fld := ⟨0x0400004, 16, 8, 35⟩
abbrev F.THM_BOARD_INLET_C : Fld := ⟨0x0400008, 0, 8, 0⟩
abbrev F.THM_BOARD_IO_DIE_C : Fld := ⟨0x0400008, 8, 8, 0⟩
abbrev F.THM_BOARD_STAGE_C : Fld := ⟨0x0400008, 16, 8, 0⟩
abbrev F.THM_BOARD_INLET_HIGH : Fld := ⟨0x0400008, 24, 1, 0⟩
abbrev F.THM_TRIP_TRIPPED : Fld := ⟨0x040000c, 0, 1, 0⟩
abbrev F.THM_TRIP_SOURCE : Fld := ⟨0x040000c, 1, 2, 0⟩
abbrev F.THM_TRIP_SENSOR : Fld := ⟨0x040000c, 8, 8, 0⟩
abbrev F.THM_TRIP_READING_C : Fld := ⟨0x040000c, 16, 8, 0⟩
abbrev F.THM_CNT_THROTTLE : Fld := ⟨0x0400040, 0, 64, 0⟩
abbrev F.THM_CNT_HOLD : Fld := ⟨0x0400048, 0, 64, 0⟩
abbrev F.THM_DIE_HOTSPOT_C (a : Nat) : Fld := ⟨0x0400100 + 0x20 * a, 0, 8, 0⟩
abbrev F.THM_DIE_DIE_C (a : Nat) : Fld := ⟨0x0400100 + 0x20 * a, 8, 8, 0⟩
abbrev F.THM_DIE_THERM_OP (a : Nat) : Fld := ⟨0x0400100 + 0x20 * a, 16, 3, 7⟩
abbrev F.THM_DIE_THROTTLING (a : Nat) : Fld := ⟨0x0400100 + 0x20 * a, 19, 1, 0⟩
abbrev F.THM_DIE_HELD (a : Nat) : Fld := ⟨0x0400100 + 0x20 * a, 20, 8, 0⟩
abbrev F.THM_CORE_TEMP_TEMP_C (a : Nat) : Fld := ⟨0x0401000 + 0x4 * a, 0, 8, 0⟩
abbrev F.THM_CORE_TEMP_MAX_C (a : Nat) : Fld := ⟨0x0401000 + 0x4 * a, 8, 8, 0⟩
abbrev F.THM_CORE_TEMP_HOT (a : Nat) : Fld := ⟨0x0401000 + 0x4 * a, 16, 1, 0⟩
abbrev F.THM_CORE_TEMP_HELD (a : Nat) : Fld := ⟨0x0401000 + 0x4 * a, 17, 1, 0⟩
abbrev F.HLT_SLICE_CFG_EN : Fld := ⟨0x0500000, 0, 1, 1⟩
abbrev F.HLT_SLICE_CFG_SP_EN : Fld := ⟨0x0500000, 1, 1, 1⟩
abbrev F.HLT_SLICE_CFG_DP_EN : Fld := ⟨0x0500000, 2, 1, 1⟩
abbrev F.HLT_SLICE_CFG_MACRO_MS : Fld := ⟨0x0500000, 4, 12, 500⟩
abbrev F.HLT_SLICE_CFG_BANK_MS : Fld := ⟨0x0500000, 16, 12, 200⟩
abbrev F.HLT_CHECK_CFG_MODE : Fld := ⟨0x0500008, 0, 2, 0⟩
abbrev F.HLT_CHECK_CFG_JOB_ACTION : Fld := ⟨0x0500008, 2, 1, 0⟩
abbrev F.HLT_CHECK_CFG_KS_INTERVAL : Fld := ⟨0x0500008, 4, 8, 16⟩
abbrev F.HLT_CHECK_CFG_MARGIN : Fld := ⟨0x0500008, 12, 4, 3⟩
abbrev F.HLT_CHECK_CFG_ALARM_COUNT : Fld := ⟨0x0500008, 16, 8, 4⟩
abbrev F.HLT_CHECK_CFG_LEARN_LOG2 : Fld := ⟨0x0500008, 24, 4, 10⟩
abbrev F.HLT_CHECK_STATUS_MODE_EFF : Fld := ⟨0x050000c, 0, 2, 1⟩
abbrev F.HLT_CHECK_STATUS_ALARM_ACTIVE : Fld := ⟨0x050000c, 2, 1, 0⟩
abbrev F.HLT_CHECK_STATUS_TRACKED : Fld := ⟨0x050000c, 3, 11, 0⟩
abbrev F.HLT_EVENT_FAIL_RECORD : Fld := ⟨0x0500010, 0, 1, 0⟩
abbrev F.HLT_EVENT_REPAIR : Fld := ⟨0x0500010, 1, 1, 0⟩
abbrev F.HLT_EVENT_ALARM : Fld := ⟨0x0500010, 2, 1, 0⟩
abbrev F.HLT_EVENT_WEIGHT_LOST : Fld := ⟨0x0500010, 3, 1, 0⟩
abbrev F.HLT_EVENT_SPARES_LOW : Fld := ⟨0x0500010, 4, 1, 0⟩
abbrev F.HLT_EVENT_MAPPED_OUT : Fld := ⟨0x0500010, 5, 1, 0⟩
abbrev F.HLT_EVENT_CANDIDATE : Fld := ⟨0x0500010, 6, 1, 0⟩
abbrev F.HLT_EVENT_TE_DONE : Fld := ⟨0x0500010, 7, 1, 0⟩
abbrev F.HLT_EVENT_MASK_MASK : Fld := ⟨0x0500014, 0, 8, 0⟩
abbrev F.HLT_FAIL_INDEX_PRODUCED : Fld := ⟨0x0500018, 0, 32, 0⟩
abbrev F.HLT_FAIL_INDEX_CONSUMED : Fld := ⟨0x0500018, 32, 32, 0⟩
abbrev F.HLT_WEIGHT_LOST_CORE : Fld := ⟨0x0500020, 0, 8, 0⟩
abbrev F.HLT_WEIGHT_LOST_MACRO : Fld := ⟨0x0500020, 8, 6, 0⟩
abbrev F.HLT_WEIGHT_LOST_BANK : Fld := ⟨0x0500020, 14, 1, 0⟩
abbrev F.HLT_WEIGHT_LOST_WSID : Fld := ⟨0x0500020, 16, 16, 0⟩
abbrev F.HLT_WEIGHT_LOST_COURSE_LOW : Fld := ⟨0x0500020, 32, 32, 0⟩
abbrev F.HLT_CNT_SLICES : Fld := ⟨0x0500040, 0, 64, 0⟩
abbrev F.HLT_CNT_SLICE_ABANDONED : Fld := ⟨0x0500048, 0, 64, 0⟩
abbrev F.HLT_CNT_SLICE_TRANSIENT : Fld := ⟨0x0500050, 0, 64, 0⟩
abbrev F.HLT_CNT_SOFT_REPAIRS : Fld := ⟨0x0500058, 0, 64, 0⟩
abbrev F.HLT_CNT_ROWS_REBUILT : Fld := ⟨0x0500060, 0, 64, 0⟩
abbrev F.HLT_CNT_WEIGHT_LOST : Fld := ⟨0x0500068, 0, 64, 0⟩
abbrev F.HLT_CNT_KS_CHECKS : Fld := ⟨0x0500070, 0, 64, 0⟩
abbrev F.HLT_CNT_KS_SKIPPED : Fld := ⟨0x0500078, 0, 64, 0⟩
abbrev F.HLT_CNT_KS_MISMATCH : Fld := ⟨0x0500080, 0, 64, 0⟩
abbrev F.HLT_CNT_RANGE_BLOCKS : Fld := ⟨0x0500088, 0, 64, 0⟩
abbrev F.HLT_CNT_OUTLIERS : Fld := ⟨0x0500090, 0, 64, 0⟩
abbrev F.HLT_CNT_ALARMS : Fld := ⟨0x0500098, 0, 64, 0⟩
abbrev F.HLT_CNT_FAIL_DROPPED : Fld := ⟨0x05000a0, 0, 64, 0⟩
abbrev F.HLT_TE_CMD_TARGET : Fld := ⟨0x0500100, 0, 4, 0⟩
abbrev F.HLT_TE_CMD_DIE : Fld := ⟨0x0500100, 4, 3, 0⟩
abbrev F.HLT_TE_CMD_STOP_ON_FAIL : Fld := ⟨0x0500100, 7, 1, 0⟩
abbrev F.HLT_TE_CMD_UNIT : Fld := ⟨0x0500100, 8, 7, 0⟩
abbrev F.HLT_TE_CMD_ELEMENT : Fld := ⟨0x0500100, 16, 8, 0⟩
abbrev F.HLT_TE_CMD_ALGO : Fld := ⟨0x0500100, 24, 4, 0⟩
abbrev F.HLT_TE_CMD_COUNT : Fld := ⟨0x0500100, 32, 32, 0⟩
abbrev F.HLT_TE_PATTERN : Fld := ⟨0x0500108, 0, 64, 0⟩
abbrev F.HLT_TE_START : Fld := ⟨0x0500110, 0, 64, 0⟩
abbrev F.HLT_TE_STATUS_BUSY : Fld := ⟨0x0500118, 0, 1, 0⟩
abbrev F.HLT_TE_STATUS_DONE : Fld := ⟨0x0500118, 1, 1, 0⟩
abbrev F.HLT_TE_STATUS_FAIL : Fld := ⟨0x0500118, 2, 1, 0⟩
abbrev F.HLT_TE_STATUS_REFUSED : Fld := ⟨0x0500118, 3, 1, 0⟩
abbrev F.HLT_TE_STATUS_FAILS : Fld := ⟨0x0500118, 16, 16, 0⟩
abbrev F.HLT_FAIL_DATA (a : Nat) (b : Nat) : Fld := ⟨0x0500400 + 0x20 * a + 0x8 * b, 0, 64, 0⟩
abbrev F.HLT_CAND_DATA (a : Nat) : Fld := ⟨0x0500c00 + 0x8 * a, 0, 64, 0⟩
abbrev F.HLT_DIE_SPARE_CORES (a : Nat) : Fld := ⟨0x0501800 + 0x10 * a, 0, 2, 2⟩
abbrev F.HLT_DIE_SPARE_BANKS (a : Nat) : Fld := ⟨0x0501800 + 0x10 * a, 2, 3, 4⟩
abbrev F.HLT_DIE_DP_BANK (a : Nat) : Fld := ⟨0x0501800 + 0x10 * a, 8, 8, 0⟩
abbrev F.HLT_DIE_DP_PHASE (a : Nat) : Fld := ⟨0x0501800 + 0x10 * a, 16, 2, 0⟩
abbrev F.HLT_CORE_SLICE_MACRO (a : Nat) : Fld := ⟨0x0502000 + 0x10 * a, 0, 7, 0⟩
abbrev F.HLT_CORE_SLICE_PHASE (a : Nat) : Fld := ⟨0x0502000 + 0x10 * a, 7, 3, 0⟩
abbrev F.HLT_CORE_SLICE_SPARE (a : Nat) : Fld := ⟨0x0502000 + 0x10 * a, 10, 7, 0⟩
abbrev F.HLT_CORE_SLICE_TARGETED (a : Nat) : Fld := ⟨0x0502000 + 0x10 * a, 17, 1, 0⟩
abbrev F.HLT_CORE_SLICE_SP_BANK (a : Nat) : Fld := ⟨0x0502000 + 0x10 * a, 18, 5, 0⟩
abbrev F.HLT_CORE_SLICE_SP_PHASE (a : Nat) : Fld := ⟨0x0502000 + 0x10 * a, 23, 2, 0⟩
abbrev F.HLT_CORE_SLICE_SPARES_FREE (a : Nat) : Fld := ⟨0x0502000 + 0x10 * a, 25, 3, 4⟩
abbrev F.HLT_CORE_SLICE_MAPPED_OUT (a : Nat) : Fld := ⟨0x0502000 + 0x10 * a, 28, 1, 0⟩
abbrev F.HLT_CORE_PASS_PASSES (a : Nat) : Fld := ⟨0x0502008 + 0x10 * a, 0, 16, 0⟩
abbrev F.HLT_KS_REF_A_EVEN (a : Nat) (b : Nat) : Fld := ⟨0x0520000 + 0x440 * a + 0x10 * b, 0, 32, 0⟩
abbrev F.HLT_KS_REF_A_ODD (a : Nat) (b : Nat) : Fld := ⟨0x0520000 + 0x440 * a + 0x10 * b, 32, 32, 0⟩
abbrev F.HLT_KS_REF_B_EVEN (a : Nat) (b : Nat) : Fld := ⟨0x0520008 + 0x440 * a + 0x10 * b, 0, 32, 0⟩
abbrev F.HLT_KS_REF_B_ODD (a : Nat) (b : Nat) : Fld := ⟨0x0520008 + 0x440 * a + 0x10 * b, 32, 32, 0⟩
abbrev F.CTX_ENTRY (a : Nat) (b : Nat) : Fld := ⟨0x1000000 + 0x40 * a + 0x8 * b, 0, 64, 0⟩
abbrev F.CTX_STATE_EN (a : Nat) : Fld := ⟨0x1100000 + 0x40 * a, 0, 1, 0⟩
abbrev F.CTX_STATE_STATE (a : Nat) : Fld := ⟨0x1100000 + 0x40 * a, 2, 2, 0⟩
abbrev F.CTX_STATE_ENABLE_PENDING (a : Nat) : Fld := ⟨0x1100000 + 0x40 * a, 4, 1, 0⟩
abbrev F.CTX_STATE_HELD (a : Nat) : Fld := ⟨0x1100000 + 0x40 * a, 5, 1, 0⟩
abbrev F.CTX_STATE_START_FAULT (a : Nat) : Fld := ⟨0x1100000 + 0x40 * a, 6, 1, 0⟩
abbrev F.CTX_STATE_HOLD_CAUSE (a : Nat) : Fld := ⟨0x1100000 + 0x40 * a, 8, 3, 0⟩
abbrev F.CTX_STATE_STARTS (a : Nat) : Fld := ⟨0x1100000 + 0x40 * a, 16, 16, 0⟩
abbrev F.CTX_PROGRESS_FETCHED (a : Nat) : Fld := ⟨0x1100008 + 0x40 * a, 0, 32, 0⟩
abbrev F.CTX_PROGRESS_CPL_COUNT (a : Nat) : Fld := ⟨0x1100008 + 0x40 * a, 32, 32, 0⟩
abbrev F.CTX_STATUS_RESIDENT (a : Nat) : Fld := ⟨0x1100010 + 0x40 * a, 0, 1, 0⟩
abbrev F.CTX_STATUS_PINNED (a : Nat) : Fld := ⟨0x1100010 + 0x40 * a, 1, 1, 0⟩
abbrev F.CTX_STATUS_BUSY (a : Nat) : Fld := ⟨0x1100010 + 0x40 * a, 2, 1, 0⟩
abbrev F.CTX_STATUS_PENDING_DB (a : Nat) : Fld := ⟨0x1100010 + 0x40 * a, 3, 1, 0⟩
abbrev F.CTX_STATUS_CPL_STALL (a : Nat) : Fld := ⟨0x1100010 + 0x40 * a, 4, 1, 0⟩
abbrev F.CTX_STATUS_FAULT (a : Nat) : Fld := ⟨0x1100010 + 0x40 * a, 5, 1, 0⟩
abbrev F.CTX_STATUS_INFLIGHT (a : Nat) : Fld := ⟨0x1100010 + 0x40 * a, 8, 7, 0⟩
abbrev F.CTX_STATUS_FAULT_CAUSE (a : Nat) : Fld := ⟨0x1100010 + 0x40 * a, 16, 4, 0⟩
abbrev F.CTX_SHADOW_SEEN_TAIL (a : Nat) : Fld := ⟨0x1100018 + 0x40 * a, 0, 32, 0⟩
abbrev F.CTX_SHADOW_SEEN_CPL_HEAD (a : Nat) : Fld := ⟨0x1100018 + 0x40 * a, 32, 32, 0⟩
abbrev F.CTX_RESET_RESET (a : Nat) : Fld := ⟨0x1100020 + 0x40 * a, 0, 1, 0⟩
abbrev F.CTX_CNT_DESC (a : Nat) : Fld := ⟨0x1100028 + 0x40 * a, 0, 64, 0⟩
abbrev F.CTX_CNT_DOORBELL (a : Nat) : Fld := ⟨0x1100030 + 0x40 * a, 0, 64, 0⟩
abbrev F.CORE_ID_LOGICAL (a : Nat) : Fld := ⟨0x2000000 + 0x1000 * a, 0, 8, a⟩
abbrev F.CORE_ID_DIE (a : Nat) : Fld := ⟨0x2000000 + 0x1000 * a, 8, 3, a / 64⟩
abbrev F.CORE_ID_PHYSICAL (a : Nat) : Fld := ⟨0x2000000 + 0x1000 * a, 16, 7, a % 64⟩
abbrev F.CORE_ID_SPARE (a : Nat) : Fld := ⟨0x2000000 + 0x1000 * a, 23, 1, 0⟩
abbrev F.CORE_LINK_PREV_STOPS (a : Nat) : Fld := ⟨0x2000004 + 0x1000 * a, 0, 6, 0⟩
abbrev F.CORE_LINK_PREV_DIR (a : Nat) : Fld := ⟨0x2000004 + 0x1000 * a, 6, 1, if a % 64 = 0 then 0 else 1⟩
abbrev F.CORE_LINK_PREV_NONE (a : Nat) : Fld := ⟨0x2000004 + 0x1000 * a, 7, 1, if a % 64 = 0 then 1 else 0⟩
abbrev F.CORE_LINK_NEXT_STOPS (a : Nat) : Fld := ⟨0x2000004 + 0x1000 * a, 8, 6, 0⟩
abbrev F.CORE_LINK_NEXT_DIR (a : Nat) : Fld := ⟨0x2000004 + 0x1000 * a, 14, 1, 0⟩
abbrev F.CORE_LINK_NEXT_NONE (a : Nat) : Fld := ⟨0x2000004 + 0x1000 * a, 15, 1, if a % 64 = 63 then 1 else 0⟩
abbrev F.CORE_LINK_REROUTED (a : Nat) : Fld := ⟨0x2000004 + 0x1000 * a, 16, 1, 0⟩
abbrev F.CORE_STATE_EN (a : Nat) : Fld := ⟨0x2000008 + 0x1000 * a, 0, 1, 0⟩
abbrev F.CORE_STATE_STATE (a : Nat) : Fld := ⟨0x2000008 + 0x1000 * a, 2, 2, 0⟩
abbrev F.CORE_STATE_ENABLE_PENDING (a : Nat) : Fld := ⟨0x2000008 + 0x1000 * a, 4, 1, 0⟩
abbrev F.CORE_STATE_HELD (a : Nat) : Fld := ⟨0x2000008 + 0x1000 * a, 5, 1, 0⟩
abbrev F.CORE_STATE_START_FAULT (a : Nat) : Fld := ⟨0x2000008 + 0x1000 * a, 6, 1, 0⟩
abbrev F.CORE_STATE_HOLD_CAUSE (a : Nat) : Fld := ⟨0x2000008 + 0x1000 * a, 8, 3, 0⟩
abbrev F.CORE_STATE_STARTS (a : Nat) : Fld := ⟨0x2000008 + 0x1000 * a, 16, 16, 0⟩
abbrev F.CORE_ACC_STATUS_TOTALS_USED (a : Nat) : Fld := ⟨0x2000200 + 0x1000 * a, 0, 14, 0⟩
abbrev F.CORE_ACC_STATUS_HALVED (a : Nat) : Fld := ⟨0x2000200 + 0x1000 * a, 14, 1, 0⟩
abbrev F.CORE_ACC_STATUS_CHAIN_WAIT (a : Nat) : Fld := ⟨0x2000200 + 0x1000 * a, 15, 1, 0⟩
abbrev F.CORE_ACC_STATUS_CHUNKQ_LEVEL (a : Nat) : Fld := ⟨0x2000200 + 0x1000 * a, 16, 15, 0⟩
abbrev F.CORE_ACC_STATUS_SCALE_WAIT (a : Nat) : Fld := ⟨0x2000200 + 0x1000 * a, 31, 1, 0⟩
abbrev F.CORE_CNT_CHUNKS (a : Nat) : Fld := ⟨0x2000208 + 0x1000 * a, 0, 64, 0⟩
abbrev F.CORE_CNT_CHUNK_SAT (a : Nat) : Fld := ⟨0x2000210 + 0x1000 * a, 0, 64, 0⟩
abbrev F.CORE_CNT_SPILLS (a : Nat) : Fld := ⟨0x2000218 + 0x1000 * a, 0, 64, 0⟩
abbrev F.CORE_CNT_RESUMES (a : Nat) : Fld := ⟨0x2000220 + 0x1000 * a, 0, 64, 0⟩
abbrev F.CORE_CNT_REPLAYS (a : Nat) : Fld := ⟨0x2000228 + 0x1000 * a, 0, 64, 0⟩
abbrev F.CORE_CNT_CHAIN_WAIT (a : Nat) : Fld := ⟨0x2000230 + 0x1000 * a, 0, 64, 0⟩
abbrev F.CORE_CNT_SCALE_WAIT (a : Nat) : Fld := ⟨0x2000238 + 0x1000 * a, 0, 64, 0⟩
abbrev F.FAB_PORT_STATE_EN (a : Nat) : Fld := ⟨0x2800000 + 0x1000 * a, 0, 1, 1⟩
abbrev F.FAB_PORT_STATE_STATE (a : Nat) : Fld := ⟨0x2800000 + 0x1000 * a, 2, 2, 0⟩
abbrev F.FAB_PORT_STATE_ENABLE_PENDING (a : Nat) : Fld := ⟨0x2800000 + 0x1000 * a, 4, 1, 0⟩
abbrev F.FAB_PORT_STATE_HELD (a : Nat) : Fld := ⟨0x2800000 + 0x1000 * a, 5, 1, 0⟩
abbrev F.FAB_PORT_STATE_START_FAULT (a : Nat) : Fld := ⟨0x2800000 + 0x1000 * a, 6, 1, 0⟩
abbrev F.FAB_PORT_STATE_HOLD_CAUSE (a : Nat) : Fld := ⟨0x2800000 + 0x1000 * a, 8, 3, 0⟩
abbrev F.FAB_PORT_STATE_STARTS (a : Nat) : Fld := ⟨0x2800000 + 0x1000 * a, 16, 16, 0⟩
abbrev F.FAB_PORT_LINK_LINK_UP (a : Nat) : Fld := ⟨0x2800004 + 0x1000 * a, 0, 1, 0⟩
abbrev F.FAB_PORT_LINK_FEC_LOCK (a : Nat) : Fld := ⟨0x2800004 + 0x1000 * a, 1, 1, 0⟩
abbrev F.FAB_PORT_LINK_LANE_OK (a : Nat) : Fld := ⟨0x2800004 + 0x1000 * a, 2, 8, 0⟩
abbrev F.FAB_PORT_MAC_MAC (a : Nat) : Fld := ⟨0x2800008 + 0x1000 * a, 0, 48, 0⟩
abbrev F.FAB_PORT_PTP_ROLE (a : Nat) : Fld := ⟨0x2800010 + 0x1000 * a, 0, 2, 0⟩
abbrev F.FAB_PORT_PTP_AS_CAPABLE (a : Nat) : Fld := ⟨0x2800010 + 0x1000 * a, 2, 1, 0⟩
abbrev F.FAB_PORT_PTP_SYNC_OK (a : Nat) : Fld := ⟨0x2800010 + 0x1000 * a, 3, 1, 0⟩
abbrev F.FAB_PORT_PTP_LINK_DELAY_NS (a : Nat) : Fld := ⟨0x2800010 + 0x1000 * a, 16, 16, 0⟩
abbrev F.FAB_PORT_CNT_TX_FRAMES (a : Nat) : Fld := ⟨0x2800040 + 0x1000 * a, 0, 64, 0⟩
abbrev F.FAB_PORT_CNT_RX_FRAMES (a : Nat) : Fld := ⟨0x2800048 + 0x1000 * a, 0, 64, 0⟩
abbrev F.FAB_PORT_CNT_TX_BYTES (a : Nat) : Fld := ⟨0x2800050 + 0x1000 * a, 0, 64, 0⟩
abbrev F.FAB_PORT_CNT_RX_BYTES (a : Nat) : Fld := ⟨0x2800058 + 0x1000 * a, 0, 64, 0⟩
abbrev F.FAB_PORT_CNT_FCS_ERR (a : Nat) : Fld := ⟨0x2800060 + 0x1000 * a, 0, 64, 0⟩
abbrev F.FAB_PORT_CNT_PCRC_ERR (a : Nat) : Fld := ⟨0x2800068 + 0x1000 * a, 0, 64, 0⟩
abbrev F.FAB_PORT_CNT_OVERSIZE (a : Nat) : Fld := ⟨0x2800070 + 0x1000 * a, 0, 64, 0⟩
abbrev F.FAB_PORT_CNT_DROPPED (a : Nat) : Fld := ⟨0x2800078 + 0x1000 * a, 0, 64, 0⟩
abbrev F.FAB_PORT_CNT_FEC_CORR (a : Nat) : Fld := ⟨0x2800080 + 0x1000 * a, 0, 64, 0⟩
abbrev F.FAB_PORT_CNT_FEC_UNCORR (a : Nat) : Fld := ⟨0x2800088 + 0x1000 * a, 0, 64, 0⟩
abbrev F.FAB_PORT_CNT_RETRAIN (a : Nat) : Fld := ⟨0x2800090 + 0x1000 * a, 0, 64, 0⟩
abbrev F.FAB_CFG_ETHERTYPE : Fld := ⟨0x2802000, 0, 16, 34997⟩
abbrev F.FAB_CFG_PCP : Fld := ⟨0x2802000, 16, 3, 5⟩
abbrev F.FAB_CFG_VID : Fld := ⟨0x2802000, 20, 12, 1⟩
abbrev F.FAB_PTP_CFG_DOMAIN : Fld := ⟨0x2802004, 0, 8, 0⟩
abbrev F.FAB_PTP_CFG_LOG_SYNC : Fld := ⟨0x2802004, 8, 8, 253⟩
abbrev F.FAB_PTP_CFG_PPS_EN : Fld := ⟨0x2802004, 16, 1, 0⟩
abbrev F.FAB_TIME_TIME_NS : Fld := ⟨0x2802008, 0, 64, 0⟩
abbrev F.FAB_TIME_STATUS_STATE : Fld := ⟨0x2802010, 0, 3, 0⟩
abbrev F.FAB_TIME_STATUS_SLAVE_PORT : Fld := ⟨0x2802010, 3, 1, 0⟩
abbrev F.FAB_TIME_STATUS_PPS_SEEN : Fld := ⟨0x2802010, 4, 1, 0⟩
abbrev F.FAB_TIME_STATUS_TIME_ERR_NS : Fld := ⟨0x2802010, 16, 16, 65535⟩
abbrev F.FAB_TIME_LIMIT_LIMIT_NS : Fld := ⟨0x2802014, 0, 16, 128⟩
abbrev F.FAB_PPS_OFFSET_OFFSET_NS : Fld := ⟨0x2802018, 0, 32, 0⟩
abbrev F.FAB_CNT_SLAVE_MOVES : Fld := ⟨0x2802040, 0, 64, 0⟩
abbrev F.FAB_CNT_PPS_MISMATCH : Fld := ⟨0x2802048, 0, 64, 0⟩
abbrev F.CRS_COURSE_COURSE : Fld := ⟨0x2900000, 0, 64, 0⟩
abbrev F.CRS_LEN_LEN : Fld := ⟨0x2900008, 0, 9, 16⟩
abbrev F.CRS_LEN_BASE_LEN : Fld := ⟨0x2900008, 16, 9, 0⟩
abbrev F.CRS_IDLE_LEN_IDLE_LEN : Fld := ⟨0x290000c, 0, 9, 16⟩
abbrev F.CRS_ANCHOR_COURSE : Fld := ⟨0x2900010, 0, 64, 0⟩
abbrev F.CRS_ANCHOR_TIME : Fld := ⟨0x2900018, 0, 64, 0⟩
abbrev F.CRS_JOB_JOB_ID : Fld := ⟨0x2900020, 0, 16, 0⟩
abbrev F.CRS_JOB_MODULE : Fld := ⟨0x2900020, 16, 10, 0⟩
abbrev F.CRS_JOB_JOINED : Fld := ⟨0x2900020, 26, 1, 0⟩
abbrev F.CRS_JOB_ROLE : Fld := ⟨0x2900020, 27, 2, 0⟩
abbrev F.CRS_JOB_SUSPENDED : Fld := ⟨0x2900020, 29, 1, 0⟩
abbrev F.CRS_JOB_FAILED : Fld := ⟨0x2900020, 30, 1, 0⟩
abbrev F.CRS_PACE_PENDING : Fld := ⟨0x2900028, 0, 1, 0⟩
abbrev F.CRS_PACE_LIMITED : Fld := ⟨0x2900028, 1, 1, 0⟩
abbrev F.CRS_PACE_NEW_LEN : Fld := ⟨0x2900028, 8, 9, 0⟩
abbrev F.CRS_PACE_EFFECTIVE : Fld := ⟨0x2900030, 0, 64, 0⟩
abbrev F.CRS_SLACK_SLACK_NS : Fld := ⟨0x2900038, 0, 32, 0⟩
abbrev F.CRS_GUARD_GUARD_NS : Fld := ⟨0x290003c, 0, 16, 0⟩
abbrev F.CRS_GUARD_PACE_REQUEST : Fld := ⟨0x290003c, 16, 1, 0⟩
abbrev F.CRS_GUARD_REQ_LEN : Fld := ⟨0x290003c, 17, 9, 0⟩
abbrev F.CRS_PLAN_ACTIVE_ID : Fld := ⟨0x2900040, 0, 16, 0⟩
abbrev F.CRS_PLAN_STAGED_ID : Fld := ⟨0x2900040, 16, 16, 0⟩
abbrev F.CRS_PLAN_STATUS_LOAD_STATUS : Fld := ⟨0x2900044, 0, 4, 0⟩
abbrev F.CRS_PLAN_STATUS_STAGED_FIRST : Fld := ⟨0x2900044, 4, 1, 0⟩
abbrev F.CRS_PLAN_STATUS_POSITION : Fld := ⟨0x2900044, 16, 12, 0⟩
abbrev F.CRS_PLAN_SWAP : Fld := ⟨0x2900048, 0, 64, 0⟩
abbrev F.CRS_CKPT_DONE : Fld := ⟨0x2900050, 0, 64, 0xffffffffffffffff⟩
abbrev F.CRS_CKPT_COMMITTED : Fld := ⟨0x2900058, 0, 64, 0xffffffffffffffff⟩
abbrev F.CRS_NOTICE_TYPE : Fld := ⟨0x2900060, 0, 4, 0⟩
abbrev F.CRS_NOTICE_COUNT : Fld := ⟨0x2900060, 8, 8, 0⟩
abbrev F.CRS_NOTICE_MODULE : Fld := ⟨0x2900060, 16, 10, 0⟩
abbrev F.CRS_NOTICE_COURSE_LOW : Fld := ⟨0x2900060, 32, 32, 0⟩
abbrev F.CRS_CNT_COURSES : Fld := ⟨0x2900080, 0, 64, 0⟩
abbrev F.CRS_CNT_SLOTS_SENT : Fld := ⟨0x2900088, 0, 64, 0⟩
abbrev F.CRS_CNT_SLOTS_RECEIVED : Fld := ⟨0x2900090, 0, 64, 0⟩
abbrev F.CRS_CNT_SLOT_TRANSIENT : Fld := ⟨0x2900098, 0, 64, 0⟩
abbrev F.CRS_CNT_SLOT_LASTING : Fld := ⟨0x29000a0, 0, 64, 0⟩
abbrev F.CRS_CNT_SLOT_LATE : Fld := ⟨0x29000a8, 0, 64, 0⟩
abbrev F.CRS_CNT_REPAIR_FULL : Fld := ⟨0x29000b0, 0, 64, 0⟩
abbrev F.CRS_CNT_ACK_LATE : Fld := ⟨0x29000b8, 0, 64, 0⟩
abbrev F.CRS_CNT_RECV_DUPLICATE : Fld := ⟨0x29000c0, 0, 64, 0⟩
abbrev F.CRS_CNT_OVERRUNS : Fld := ⟨0x29000c8, 0, 64, 0⟩
abbrev F.CRS_CNT_PACE_REQUESTS : Fld := ⟨0x29000d0, 0, 64, 0⟩
abbrev F.CRS_CNT_PACE_CHANGES : Fld := ⟨0x29000d8, 0, 64, 0⟩
abbrev F.CRS_CNT_STATUS_MISSED : Fld := ⟨0x29000e0, 0, 64, 0⟩
abbrev F.CRS_CNT_KEYSTONE_MISSED : Fld := ⟨0x29000e8, 0, 64, 0⟩
abbrev F.CRS_CNT_SUSPENSIONS : Fld := ⟨0x29000f0, 0, 64, 0⟩
abbrev F.CRS_CNT_FAULTS_SUSPENDED : Fld := ⟨0x29000f8, 0, 64, 0⟩
abbrev F.SEQ_MODE_L0_ONLY (a : Nat) : Fld := ⟨0x3000000 + 0x1000 * a, 0, 1, 0⟩
abbrev F.SEQ_MODE_PENDING (a : Nat) : Fld := ⟨0x3000000 + 0x1000 * a, 1, 1, 0⟩
abbrev F.SEQ_MODE_BUSY (a : Nat) : Fld := ⟨0x3000000 + 0x1000 * a, 2, 1, 0⟩
abbrev F.SEQ_OP_OPREC (a : Nat) : Fld := ⟨0x3000008 + 0x1000 * a, 0, 64, 0⟩
abbrev F.SEQ_TILE_TILE (a : Nat) : Fld := ⟨0x3000010 + 0x1000 * a, 0, 32, 0xffffffff⟩
abbrev F.SEQ_TILE_L1_INDEX (a : Nat) : Fld := ⟨0x3000010 + 0x1000 * a, 32, 16, 0⟩
abbrev F.SEQ_TILE_L0_INDEX (a : Nat) : Fld := ⟨0x3000010 + 0x1000 * a, 48, 16, 0⟩
abbrev F.SEQ_ORDER_ORDER0 (a : Nat) : Fld := ⟨0x3000018 + 0x1000 * a, 0, 3, 0⟩
abbrev F.SEQ_ORDER_ORDER1 (a : Nat) : Fld := ⟨0x3000018 + 0x1000 * a, 3, 3, 0⟩
abbrev F.SEQ_ORDER_ORDER2 (a : Nat) : Fld := ⟨0x3000018 + 0x1000 * a, 6, 3, 0⟩
abbrev F.SEQ_ORDER_ORDER3 (a : Nat) : Fld := ⟨0x3000018 + 0x1000 * a, 9, 3, 0⟩
abbrev F.SEQ_EXT_TM (a : Nat) (b : Nat) : Fld := ⟨0x3000020 + 0x1000 * a + 0x8 * b, 0, 24, 0⟩
abbrev F.SEQ_EXT_TN (a : Nat) (b : Nat) : Fld := ⟨0x3000020 + 0x1000 * a + 0x8 * b, 24, 20, 0⟩
abbrev F.SEQ_EXT_TK (a : Nat) (b : Nat) : Fld := ⟨0x3000020 + 0x1000 * a + 0x8 * b, 44, 20, 0⟩
abbrev F.SEQ_L0_CMD_CMD_OFF (a : Nat) : Fld := ⟨0x3000040 + 0x1000 * a, 0, 32, 0⟩
abbrev F.SEQ_L0_STATUS_DONE (a : Nat) : Fld := ⟨0x3000044 + 0x1000 * a, 0, 1, 0⟩
abbrev F.SEQ_L0_STATUS_FAULT (a : Nat) : Fld := ⟨0x3000044 + 0x1000 * a, 1, 1, 0⟩
abbrev F.SEQ_L0_STATUS_CAUSE (a : Nat) : Fld := ⟨0x3000044 + 0x1000 * a, 8, 8, 0⟩
abbrev F.SEQ_L0_STATUS_COMMANDS (a : Nat) : Fld := ⟨0x3000044 + 0x1000 * a, 16, 16, 0⟩
abbrev F.SEQ_CNT_TILES (a : Nat) : Fld := ⟨0x3000080 + 0x1000 * a, 0, 64, 0⟩
abbrev F.SEQ_CNT_BLOCKS (a : Nat) : Fld := ⟨0x3000088 + 0x1000 * a, 0, 64, 0⟩
abbrev F.SEQ_CNT_LOADS (a : Nat) : Fld := ⟨0x3000090 + 0x1000 * a, 0, 64, 0⟩
abbrev F.SEQ_CNT_PAD_VECTORS (a : Nat) : Fld := ⟨0x3000098 + 0x1000 * a, 0, 64, 0⟩
abbrev F.SEQ_CNT_HALO_LOCAL (a : Nat) : Fld := ⟨0x30000a0 + 0x1000 * a, 0, 64, 0⟩
abbrev F.SEQ_CNT_HALO_HIT (a : Nat) : Fld := ⟨0x30000a8 + 0x1000 * a, 0, 64, 0⟩
abbrev F.SEQ_CNT_HALO_MISS (a : Nat) : Fld := ⟨0x30000b0 + 0x1000 * a, 0, 64, 0⟩
abbrev F.SEQ_CNT_HALO_DEPOSIT (a : Nat) : Fld := ⟨0x30000b8 + 0x1000 * a, 0, 64, 0⟩
abbrev F.CIM_STATE_EN (a : Nat) (b : Nat) : Fld := ⟨0x4000000 + 0x4000 * a + 0x80 * b, 0, 1, if b < 64 then 1 else 0⟩
abbrev F.CIM_STATE_STATE (a : Nat) (b : Nat) : Fld := ⟨0x4000000 + 0x4000 * a + 0x80 * b, 2, 2, 0⟩
abbrev F.CIM_STATE_ENABLE_PENDING (a : Nat) (b : Nat) : Fld := ⟨0x4000000 + 0x4000 * a + 0x80 * b, 4, 1, 0⟩
abbrev F.CIM_STATE_HELD (a : Nat) (b : Nat) : Fld := ⟨0x4000000 + 0x4000 * a + 0x80 * b, 5, 1, 0⟩
abbrev F.CIM_STATE_START_FAULT (a : Nat) (b : Nat) : Fld := ⟨0x4000000 + 0x4000 * a + 0x80 * b, 6, 1, 0⟩
abbrev F.CIM_STATE_HOLD_CAUSE (a : Nat) (b : Nat) : Fld := ⟨0x4000000 + 0x4000 * a + 0x80 * b, 8, 3, 0⟩
abbrev F.CIM_STATE_STARTS (a : Nat) (b : Nat) : Fld := ⟨0x4000000 + 0x4000 * a + 0x80 * b, 16, 16, 0⟩
abbrev F.CIM_MAP_PHYSICAL (a : Nat) (b : Nat) : Fld := ⟨0x4000004 + 0x4000 * a + 0x80 * b, 0, 7, b⟩
abbrev F.CIM_MAP_STREAM_CAP (a : Nat) (b : Nat) : Fld := ⟨0x4000004 + 0x4000 * a + 0x80 * b, 7, 1, if 56 ≤ b then 1 else 0⟩
abbrev F.CIM_MAP_LOGICAL (a : Nat) (b : Nat) : Fld := ⟨0x4000004 + 0x4000 * a + 0x80 * b, 8, 6, if b < 64 then b else 0⟩
abbrev F.CIM_MAP_ASSIGNED (a : Nat) (b : Nat) : Fld := ⟨0x4000004 + 0x4000 * a + 0x80 * b, 14, 1, if b < 64 then 1 else 0⟩
abbrev F.CIM_MAP_BORROWED (a : Nat) (b : Nat) : Fld := ⟨0x4000004 + 0x4000 * a + 0x80 * b, 15, 1, 0⟩
abbrev F.CIM_MODE_WIDE (a : Nat) (b : Nat) : Fld := ⟨0x4000008 + 0x4000 * a + 0x80 * b, 0, 1, 0⟩
abbrev F.CIM_MODE_WIDE_EFFECTIVE (a : Nat) (b : Nat) : Fld := ⟨0x4000008 + 0x4000 * a + 0x80 * b, 1, 1, 0⟩
abbrev F.CIM_MODE_TAP_LAST (a : Nat) (b : Nat) : Fld := ⟨0x4000008 + 0x4000 * a + 0x80 * b, 2, 3, 4⟩
abbrev F.CIM_MODE_STAGGER (a : Nat) (b : Nat) : Fld := ⟨0x4000008 + 0x4000 * a + 0x80 * b, 8, 3, 0⟩
abbrev F.CIM_BANK_ACTIVE (a : Nat) (b : Nat) : Fld := ⟨0x400000c + 0x4000 * a + 0x80 * b, 0, 1, 0⟩
abbrev F.CIM_BANK_VALID_A (a : Nat) (b : Nat) : Fld := ⟨0x400000c + 0x4000 * a + 0x80 * b, 1, 1, 0⟩
abbrev F.CIM_BANK_VALID_B (a : Nat) (b : Nat) : Fld := ⟨0x400000c + 0x4000 * a + 0x80 * b, 2, 1, 0⟩
abbrev F.CIM_BANK_WRITING (a : Nat) (b : Nat) : Fld := ⟨0x400000c + 0x4000 * a + 0x80 * b, 3, 1, 0⟩
abbrev F.CIM_BANK_WRITE_BANK (a : Nat) (b : Nat) : Fld := ⟨0x400000c + 0x4000 * a + 0x80 * b, 4, 1, 0⟩
abbrev F.CIM_BANK_SWAP_WAIT (a : Nat) (b : Nat) : Fld := ⟨0x400000c + 0x4000 * a + 0x80 * b, 5, 1, 0⟩
abbrev F.CIM_BANK_SWAP_TO (a : Nat) (b : Nat) : Fld := ⟨0x400000c + 0x4000 * a + 0x80 * b, 6, 1, 0⟩
abbrev F.CIM_BANK_SLOT_A (a : Nat) (b : Nat) : Fld := ⟨0x400000c + 0x4000 * a + 0x80 * b, 8, 3, 0⟩
abbrev F.CIM_BANK_SLOT_B (a : Nat) (b : Nat) : Fld := ⟨0x400000c + 0x4000 * a + 0x80 * b, 12, 3, 0⟩
abbrev F.CIM_WSID_WSID_A (a : Nat) (b : Nat) : Fld := ⟨0x4000010 + 0x4000 * a + 0x80 * b, 0, 16, 0⟩
abbrev F.CIM_WSID_WSID_B (a : Nat) (b : Nat) : Fld := ⟨0x4000010 + 0x4000 * a + 0x80 * b, 16, 16, 0⟩
abbrev F.CIM_WRITE_RESULT_FIRST_FAIL_ROW (a : Nat) (b : Nat) : Fld := ⟨0x4000014 + 0x4000 * a + 0x80 * b, 0, 9, 0⟩
abbrev F.CIM_WRITE_RESULT_FAILED (a : Nat) (b : Nat) : Fld := ⟨0x4000014 + 0x4000 * a + 0x80 * b, 10, 1, 0⟩
abbrev F.CIM_WRITE_RESULT_SINGLE_PASS (a : Nat) (b : Nat) : Fld := ⟨0x4000014 + 0x4000 * a + 0x80 * b, 11, 1, 0⟩
abbrev F.CIM_WRITE_RESULT_FAILED_ROWS (a : Nat) (b : Nat) : Fld := ⟨0x4000014 + 0x4000 * a + 0x80 * b, 12, 10, 0⟩
abbrev F.CIM_WRITE_RESULT_MAX_ATTEMPT (a : Nat) (b : Nat) : Fld := ⟨0x4000014 + 0x4000 * a + 0x80 * b, 22, 3, 0⟩
abbrev F.CIM_BANK_A_STATE_EN (a : Nat) (b : Nat) : Fld := ⟨0x4000018 + 0x4000 * a + 0x80 * b, 0, 1, 1⟩
abbrev F.CIM_BANK_A_STATE_STATE (a : Nat) (b : Nat) : Fld := ⟨0x4000018 + 0x4000 * a + 0x80 * b, 2, 2, 0⟩
abbrev F.CIM_BANK_A_STATE_ENABLE_PENDING (a : Nat) (b : Nat) : Fld := ⟨0x4000018 + 0x4000 * a + 0x80 * b, 4, 1, 0⟩
abbrev F.CIM_BANK_A_STATE_HELD (a : Nat) (b : Nat) : Fld := ⟨0x4000018 + 0x4000 * a + 0x80 * b, 5, 1, 0⟩
abbrev F.CIM_BANK_A_STATE_START_FAULT (a : Nat) (b : Nat) : Fld := ⟨0x4000018 + 0x4000 * a + 0x80 * b, 6, 1, 0⟩
abbrev F.CIM_BANK_A_STATE_HOLD_CAUSE (a : Nat) (b : Nat) : Fld := ⟨0x4000018 + 0x4000 * a + 0x80 * b, 8, 3, 0⟩
abbrev F.CIM_BANK_A_STATE_STARTS (a : Nat) (b : Nat) : Fld := ⟨0x4000018 + 0x4000 * a + 0x80 * b, 16, 16, 0⟩
abbrev F.CIM_BANK_B_STATE_EN (a : Nat) (b : Nat) : Fld := ⟨0x400001c + 0x4000 * a + 0x80 * b, 0, 1, 1⟩
abbrev F.CIM_BANK_B_STATE_STATE (a : Nat) (b : Nat) : Fld := ⟨0x400001c + 0x4000 * a + 0x80 * b, 2, 2, 0⟩
abbrev F.CIM_BANK_B_STATE_ENABLE_PENDING (a : Nat) (b : Nat) : Fld := ⟨0x400001c + 0x4000 * a + 0x80 * b, 4, 1, 0⟩
abbrev F.CIM_BANK_B_STATE_HELD (a : Nat) (b : Nat) : Fld := ⟨0x400001c + 0x4000 * a + 0x80 * b, 5, 1, 0⟩
abbrev F.CIM_BANK_B_STATE_START_FAULT (a : Nat) (b : Nat) : Fld := ⟨0x400001c + 0x4000 * a + 0x80 * b, 6, 1, 0⟩
abbrev F.CIM_BANK_B_STATE_HOLD_CAUSE (a : Nat) (b : Nat) : Fld := ⟨0x400001c + 0x4000 * a + 0x80 * b, 8, 3, 0⟩
abbrev F.CIM_BANK_B_STATE_STARTS (a : Nat) (b : Nat) : Fld := ⟨0x400001c + 0x4000 * a + 0x80 * b, 16, 16, 0⟩
abbrev F.CIM_CNT_PLANES (a : Nat) (b : Nat) : Fld := ⟨0x4000020 + 0x4000 * a + 0x80 * b, 0, 64, 0⟩
abbrev F.CIM_CNT_SKIPPED (a : Nat) (b : Nat) : Fld := ⟨0x4000028 + 0x4000 * a + 0x80 * b, 0, 64, 0⟩
abbrev F.CIM_CNT_SPLITS (a : Nat) (b : Nat) : Fld := ⟨0x4000030 + 0x4000 * a + 0x80 * b, 0, 64, 0⟩
abbrev F.CIM_CNT_RETRY (a : Nat) (b : Nat) : Fld := ⟨0x4000038 + 0x4000 * a + 0x80 * b, 0, 64, 0⟩
abbrev F.CIM_CNT_MARGINAL (a : Nat) (b : Nat) : Fld := ⟨0x4000040 + 0x4000 * a + 0x80 * b, 0, 64, 0⟩
abbrev F.CIM_CNT_LATE_SWAP (a : Nat) (b : Nat) : Fld := ⟨0x4000048 + 0x4000 * a + 0x80 * b, 0, 64, 0⟩
abbrev F.CIM_CNT_FULLSCALE (a : Nat) (b : Nat) : Fld := ⟨0x4000050 + 0x4000 * a + 0x80 * b, 0, 64, 0⟩
abbrev F.CIM_PV_TIME_WRITE_NS : Fld := ⟨0x4400000, 0, 10, 250⟩
abbrev F.CIM_PV_TIME_SETTLE_NS : Fld := ⟨0x4400000, 10, 12, 1750⟩
abbrev F.CIM_PV_TIME_READ_NS : Fld := ⟨0x4400000, 22, 10, 100⟩
abbrev F.CIM_PV_MARGIN_MARGIN_MV : Fld := ⟨0x4400004, 0, 8, 0⟩
abbrev F.CIM_PV_MARGIN_MAX_ATTEMPTS : Fld := ⟨0x4400004, 8, 3, 4⟩
abbrev F.CIM_CORE_BANKMAP_ACTIVE (a : Nat) : Fld := ⟨0x4003000 + 0x4000 * a, 0, 64, 0⟩
abbrev F.CIM_CORE_VALIDMAP_ACTIVE_VALID (a : Nat) : Fld := ⟨0x4003008 + 0x4000 * a, 0, 64, 0⟩
abbrev F.DECK_HOME_BASE : Fld := ⟨0x4800000, 0, 48, 0xf000000000⟩
abbrev F.DECK_HOME_SIZE_MIB : Fld := ⟨0x4800000, 48, 8, 4⟩
abbrev F.DECK_POLICY_STEAL_EN : Fld := ⟨0x4800008, 0, 1, 1⟩
abbrev F.DECK_POLICY_DRAW_AHEAD : Fld := ⟨0x4800008, 1, 1, 1⟩
abbrev F.DECK_POLICY_STALL_MS : Fld := ⟨0x4800008, 8, 8, 10⟩
abbrev F.DECK_HOME_CNT_ATOMICS : Fld := ⟨0x4800010, 0, 64, 0⟩
abbrev F.DECK_HOME_CNT_CONFLICT : Fld := ⟨0x4800018, 0, 64, 0⟩
abbrev F.DECK_HAND_FIRST (a : Nat) : Fld := ⟨0x4810000 + 0x100 * a, 0, 32, 0xffffffff⟩
abbrev F.DECK_HAND_COUNT (a : Nat) : Fld := ⟨0x4810000 + 0x100 * a, 32, 4, 0⟩
abbrev F.DECK_HAND_POS (a : Nat) : Fld := ⟨0x4810000 + 0x100 * a, 36, 4, 0⟩
abbrev F.DECK_HAND_LEAD (a : Nat) : Fld := ⟨0x4810000 + 0x100 * a, 40, 1, 0⟩
abbrev F.DECK_HAND_STOLEN (a : Nat) : Fld := ⟨0x4810000 + 0x100 * a, 41, 1, 0⟩
abbrev F.DECK_HAND_EMPTY (a : Nat) : Fld := ⟨0x4810000 + 0x100 * a, 42, 1, 0⟩
abbrev F.DECK_GEN_GEN (a : Nat) : Fld := ⟨0x4810008 + 0x100 * a, 0, 32, 0⟩
abbrev F.DECK_CNT_DRAWS (a : Nat) : Fld := ⟨0x4810010 + 0x100 * a, 0, 64, 0⟩
abbrev F.DECK_CNT_EMPTY (a : Nat) : Fld := ⟨0x4810018 + 0x100 * a, 0, 64, 0⟩
abbrev F.DECK_CNT_STEALS (a : Nat) : Fld := ⟨0x4810020 + 0x100 * a, 0, 64, 0⟩
abbrev F.DECK_CNT_LOST (a : Nat) : Fld := ⟨0x4810028 + 0x100 * a, 0, 64, 0⟩
abbrev F.DECK_CNT_RETURNS (a : Nat) : Fld := ⟨0x4810030 + 0x100 * a, 0, 64, 0⟩
abbrev F.DECK_CNT_WAIT (a : Nat) : Fld := ⟨0x4810038 + 0x100 * a, 0, 64, 0⟩
abbrev F.POOL_SP_STATUS_CLEARING (a : Nat) : Fld := ⟨0x5000000 + 0x400 * a, 0, 1, 0⟩
abbrev F.POOL_SP_STATUS_MIRROR (a : Nat) : Fld := ⟨0x5000000 + 0x400 * a, 1, 1, 0⟩
abbrev F.POOL_SP_STATUS_REDIRECT (a : Nat) : Fld := ⟨0x5000000 + 0x400 * a, 2, 1, 0⟩
abbrev F.POOL_SP_STATUS_BANK_SERVED (a : Nat) : Fld := ⟨0x5000000 + 0x400 * a, 3, 4, 0⟩
abbrev F.POOL_SP_COLREP_COL0 (a : Nat) (b : Nat) : Fld := ⟨0x5000040 + 0x400 * a + 0x4 * b, 0, 9, 0⟩
abbrev F.POOL_SP_COLREP_VALID0 (a : Nat) (b : Nat) : Fld := ⟨0x5000040 + 0x400 * a + 0x4 * b, 9, 1, 0⟩
abbrev F.POOL_SP_COLREP_FUSED0 (a : Nat) (b : Nat) : Fld := ⟨0x5000040 + 0x400 * a + 0x4 * b, 10, 1, 0⟩
abbrev F.POOL_SP_COLREP_COL1 (a : Nat) (b : Nat) : Fld := ⟨0x5000040 + 0x400 * a + 0x4 * b, 16, 9, 0⟩
abbrev F.POOL_SP_COLREP_VALID1 (a : Nat) (b : Nat) : Fld := ⟨0x5000040 + 0x400 * a + 0x4 * b, 25, 1, 0⟩
abbrev F.POOL_SP_COLREP_FUSED1 (a : Nat) (b : Nat) : Fld := ⟨0x5000040 + 0x400 * a + 0x4 * b, 26, 1, 0⟩
abbrev F.POOL_SP_ERR_OFFSET (a : Nat) : Fld := ⟨0x5000080 + 0x400 * a, 0, 19, 0⟩
abbrev F.POOL_SP_ERR_CLASS (a : Nat) : Fld := ⟨0x5000080 + 0x400 * a, 19, 2, 0⟩
abbrev F.POOL_SP_ERR_COLUMN (a : Nat) : Fld := ⟨0x5000080 + 0x400 * a, 21, 9, 0⟩
abbrev F.POOL_SP_ERR_MASTER (a : Nat) : Fld := ⟨0x5000080 + 0x400 * a, 30, 3, 0⟩
abbrev F.POOL_SP_ERR_VALID (a : Nat) : Fld := ⟨0x5000080 + 0x400 * a, 63, 1, 0⟩
abbrev F.POOL_SP_CNT_CONFLICT (a : Nat) (b : Nat) : Fld := ⟨0x5000100 + 0x400 * a + 0x8 * b, 0, 64, 0⟩
abbrev F.POOL_SP_CNT_CORRECTED (a : Nat) : Fld := ⟨0x5000140 + 0x400 * a, 0, 64, 0⟩
abbrev F.POOL_SP_CNT_TRANSIENT (a : Nat) : Fld := ⟨0x5000148 + 0x400 * a, 0, 64, 0⟩
abbrev F.POOL_SP_CNT_LASTING (a : Nat) : Fld := ⟨0x5000150 + 0x400 * a, 0, 64, 0⟩
abbrev F.POOL_SP_CNT_RMW (a : Nat) : Fld := ⟨0x5000158 + 0x400 * a, 0, 64, 0⟩
abbrev F.POOL_SP_CNT_DENIED (a : Nat) : Fld := ⟨0x5000160 + 0x400 * a, 0, 64, 0⟩
abbrev F.POOL_DP_STATUS_CLEARING (a : Nat) : Fld := ⟨0x5080000 + 0x4000 * a, 0, 1, 0⟩
abbrev F.POOL_DP_STATUS_WIPING (a : Nat) : Fld := ⟨0x5080000 + 0x4000 * a, 1, 1, 0⟩
abbrev F.POOL_DP_STATUS_VAULT_FAULT (a : Nat) : Fld := ⟨0x5080000 + 0x4000 * a, 2, 1, 0⟩
abbrev F.POOL_DP_STATUS_MIRROR (a : Nat) : Fld := ⟨0x5080000 + 0x4000 * a, 4, 4, 0⟩
abbrev F.POOL_DP_STATUS_REDIRECT (a : Nat) : Fld := ⟨0x5080000 + 0x4000 * a, 8, 4, 0⟩
abbrev F.POOL_DP_SPARE_BANK_SERVED (a : Nat) (b : Nat) : Fld := ⟨0x5080010 + 0x4000 * a + 0x4 * b, 0, 8, 0⟩
abbrev F.POOL_DP_SPARE_ASSIGNED (a : Nat) (b : Nat) : Fld := ⟨0x5080010 + 0x4000 * a + 0x4 * b, 8, 1, 0⟩
abbrev F.POOL_DP_SPARE_BORROWED (a : Nat) (b : Nat) : Fld := ⟨0x5080010 + 0x4000 * a + 0x4 * b, 9, 1, 0⟩
abbrev F.POOL_DP_SPARE_FUSED (a : Nat) (b : Nat) : Fld := ⟨0x5080010 + 0x4000 * a + 0x4 * b, 10, 1, 0⟩
abbrev F.POOL_DP_ERR_OFFSET (a : Nat) : Fld := ⟨0x5080040 + 0x4000 * a, 0, 26, 0⟩
abbrev F.POOL_DP_ERR_CLASS (a : Nat) : Fld := ⟨0x5080040 + 0x4000 * a, 26, 2, 0⟩
abbrev F.POOL_DP_ERR_COLUMN (a : Nat) : Fld := ⟨0x5080040 + 0x4000 * a, 28, 10, 0⟩
abbrev F.POOL_DP_ERR_MASTER (a : Nat) : Fld := ⟨0x5080040 + 0x4000 * a, 38, 7, 0⟩
abbrev F.POOL_DP_ERR_VALID (a : Nat) : Fld := ⟨0x5080040 + 0x4000 * a, 63, 1, 0⟩
abbrev F.POOL_DP_SCRUB_EN (a : Nat) : Fld := ⟨0x5080048 + 0x4000 * a, 0, 1, 1⟩
abbrev F.POOL_DP_SCRUB_INTERVAL_MS (a : Nat) : Fld := ⟨0x5080048 + 0x4000 * a, 8, 16, 1000⟩
abbrev F.POOL_DP_COLREP_COL0 (a : Nat) (b : Nat) : Fld := ⟨0x5080800 + 0x4000 * a + 0x8 * b, 0, 10, 0⟩
abbrev F.POOL_DP_COLREP_VALID0 (a : Nat) (b : Nat) : Fld := ⟨0x5080800 + 0x4000 * a + 0x8 * b, 10, 1, 0⟩
abbrev F.POOL_DP_COLREP_FUSED0 (a : Nat) (b : Nat) : Fld := ⟨0x5080800 + 0x4000 * a + 0x8 * b, 11, 1, 0⟩
abbrev F.POOL_DP_COLREP_COL1 (a : Nat) (b : Nat) : Fld := ⟨0x5080800 + 0x4000 * a + 0x8 * b, 16, 10, 0⟩
abbrev F.POOL_DP_COLREP_VALID1 (a : Nat) (b : Nat) : Fld := ⟨0x5080800 + 0x4000 * a + 0x8 * b, 26, 1, 0⟩
abbrev F.POOL_DP_COLREP_FUSED1 (a : Nat) (b : Nat) : Fld := ⟨0x5080800 + 0x4000 * a + 0x8 * b, 27, 1, 0⟩
abbrev F.POOL_DP_COLREP_COL2 (a : Nat) (b : Nat) : Fld := ⟨0x5080800 + 0x4000 * a + 0x8 * b, 32, 10, 0⟩
abbrev F.POOL_DP_COLREP_VALID2 (a : Nat) (b : Nat) : Fld := ⟨0x5080800 + 0x4000 * a + 0x8 * b, 42, 1, 0⟩
abbrev F.POOL_DP_COLREP_FUSED2 (a : Nat) (b : Nat) : Fld := ⟨0x5080800 + 0x4000 * a + 0x8 * b, 43, 1, 0⟩
abbrev F.POOL_DP_COLREP_COL3 (a : Nat) (b : Nat) : Fld := ⟨0x5080800 + 0x4000 * a + 0x8 * b, 48, 10, 0⟩
abbrev F.POOL_DP_COLREP_VALID3 (a : Nat) (b : Nat) : Fld := ⟨0x5080800 + 0x4000 * a + 0x8 * b, 58, 1, 0⟩
abbrev F.POOL_DP_COLREP_FUSED3 (a : Nat) (b : Nat) : Fld := ⟨0x5080800 + 0x4000 * a + 0x8 * b, 59, 1, 0⟩
abbrev F.POOL_DP_CNT_CONFLICT (a : Nat) (b : Nat) : Fld := ⟨0x5081000 + 0x4000 * a + 0x8 * b, 0, 64, 0⟩
abbrev F.POOL_DP_CNT_CORRECTED (a : Nat) : Fld := ⟨0x5081400 + 0x4000 * a, 0, 64, 0⟩
abbrev F.POOL_DP_CNT_TRANSIENT (a : Nat) : Fld := ⟨0x5081408 + 0x4000 * a, 0, 64, 0⟩
abbrev F.POOL_DP_CNT_LASTING (a : Nat) : Fld := ⟨0x5081410 + 0x4000 * a, 0, 64, 0⟩
abbrev F.POOL_DP_CNT_RMW (a : Nat) : Fld := ⟨0x5081418 + 0x4000 * a, 0, 64, 0⟩
abbrev F.POOL_DP_CNT_ATOMICS (a : Nat) : Fld := ⟨0x5081420 + 0x4000 * a, 0, 64, 0⟩
abbrev F.POOL_DP_CNT_DENIED (a : Nat) : Fld := ⟨0x5081428 + 0x4000 * a, 0, 64, 0⟩
abbrev F.POOL_DP_CNT_SCRUBBED (a : Nat) : Fld := ⟨0x5081430 + 0x4000 * a, 0, 64, 0⟩
abbrev F.POOL_VAULT_STATUS_WIPING : Fld := ⟨0x5100000, 0, 4, 0⟩
abbrev F.POOL_VAULT_STATUS_FAULT : Fld := ⟨0x5100000, 4, 4, 0⟩
abbrev F.POOL_VAULT_STATUS_LAST_CAUSE : Fld := ⟨0x5100000, 8, 3, 0⟩
abbrev F.POOL_VAULT_STATUS_WIPES : Fld := ⟨0x5100000, 16, 16, 0⟩
abbrev F.POOL_VAULT_WIPE_WIPE : Fld := ⟨0x5100004, 0, 1, 0⟩
abbrev F.MEM_STACK_STATE_EN (a : Nat) : Fld := ⟨0x6000000 + 0x1000 * a, 0, 1, 1⟩
abbrev F.MEM_STACK_STATE_STATE (a : Nat) : Fld := ⟨0x6000000 + 0x1000 * a, 2, 2, 0⟩
abbrev F.MEM_STACK_STATE_ENABLE_PENDING (a : Nat) : Fld := ⟨0x6000000 + 0x1000 * a, 4, 1, 0⟩
abbrev F.MEM_STACK_STATE_HELD (a : Nat) : Fld := ⟨0x6000000 + 0x1000 * a, 5, 1, 0⟩
abbrev F.MEM_STACK_STATE_START_FAULT (a : Nat) : Fld := ⟨0x6000000 + 0x1000 * a, 6, 1, 0⟩
abbrev F.MEM_STACK_STATE_HOLD_CAUSE (a : Nat) : Fld := ⟨0x6000000 + 0x1000 * a, 8, 3, 0⟩
abbrev F.MEM_STACK_STATE_STARTS (a : Nat) : Fld := ⟨0x6000000 + 0x1000 * a, 16, 16, 0⟩
abbrev F.MEM_STACK_INFO_STACK (a : Nat) : Fld := ⟨0x6000004 + 0x1000 * a, 0, 5, a⟩
abbrev F.MEM_STACK_INFO_DIE (a : Nat) : Fld := ⟨0x6000004 + 0x1000 * a, 5, 3, a / 6⟩
abbrev F.MEM_STACK_INFO_WALL (a : Nat) : Fld := ⟨0x6000004 + 0x1000 * a, 8, 1, a / 12⟩
abbrev F.MEM_STACK_INFO_LOCAL (a : Nat) : Fld := ⟨0x6000004 + 0x1000 * a, 9, 4, a % 12⟩
abbrev F.MEM_STACK_INFO_LANES_REPAIRED (a : Nat) : Fld := ⟨0x6000004 + 0x1000 * a, 16, 6, 0⟩
abbrev F.MEM_STACK_INFO_TRAIN_MS (a : Nat) : Fld := ⟨0x6000004 + 0x1000 * a, 22, 10, 0⟩
abbrev F.MEM_STACK_TEMP_TEMP_C (a : Nat) : Fld := ⟨0x6000008 + 0x1000 * a, 0, 8, 0⟩
abbrev F.MEM_STACK_TEMP_MAX_C (a : Nat) : Fld := ⟨0x6000008 + 0x1000 * a, 8, 8, 0⟩
abbrev F.MEM_STACK_TEMP_REFRESH_2X (a : Nat) : Fld := ⟨0x6000008 + 0x1000 * a, 16, 1, 0⟩
abbrev F.MEM_STACK_ERR_UNIT (a : Nat) : Fld := ⟨0x6000010 + 0x1000 * a, 0, 27, 0⟩
abbrev F.MEM_STACK_ERR_GRANULE (a : Nat) : Fld := ⟨0x6000010 + 0x1000 * a, 27, 5, 0⟩
abbrev F.MEM_STACK_ERR_CLASS (a : Nat) : Fld := ⟨0x6000010 + 0x1000 * a, 32, 2, 0⟩
abbrev F.MEM_STACK_ERR_BIT (a : Nat) : Fld := ⟨0x6000010 + 0x1000 * a, 34, 7, 0⟩
abbrev F.MEM_STACK_ERR_SOURCE (a : Nat) : Fld := ⟨0x6000010 + 0x1000 * a, 41, 3, 0⟩
abbrev F.MEM_STACK_ERR_VALID (a : Nat) : Fld := ⟨0x6000010 + 0x1000 * a, 63, 1, 0⟩
abbrev F.MEM_STACK_CNT_CORRECTED (a : Nat) : Fld := ⟨0x6000040 + 0x1000 * a, 0, 64, 0⟩
abbrev F.MEM_STACK_CNT_TRANSIENT (a : Nat) : Fld := ⟨0x6000048 + 0x1000 * a, 0, 64, 0⟩
abbrev F.MEM_STACK_CNT_LASTING (a : Nat) : Fld := ⟨0x6000050 + 0x1000 * a, 0, 64, 0⟩
abbrev F.MEM_STACK_CNT_RECONSTRUCTED (a : Nat) : Fld := ⟨0x6000058 + 0x1000 * a, 0, 64, 0⟩
abbrev F.MEM_STACK_CNT_LINK_RETRY (a : Nat) : Fld := ⟨0x6000060 + 0x1000 * a, 0, 64, 0⟩
abbrev F.MEM_STACK_CNT_ONDIE (a : Nat) : Fld := ⟨0x6000068 + 0x1000 * a, 0, 64, 0⟩
abbrev F.MEM_STACK_CNT_SCRUBBED (a : Nat) : Fld := ⟨0x6000070 + 0x1000 * a, 0, 64, 0⟩
abbrev F.MEM_STACK_CNT_READ_UNITS (a : Nat) : Fld := ⟨0x6000078 + 0x1000 * a, 0, 64, 0⟩
abbrev F.MEM_STACK_CNT_WRITE_UNITS (a : Nat) : Fld := ⟨0x6000080 + 0x1000 * a, 0, 64, 0⟩
abbrev F.MEM_STACK_CNT_DENIED (a : Nat) : Fld := ⟨0x6000088 + 0x1000 * a, 0, 64, 0⟩
abbrev F.MEM_WALL_CFG_PARITY (a : Nat) : Fld := ⟨0x6020000 + 0x400 * a, 0, 1, 1⟩
abbrev F.MEM_WALL_CFG_PARITY_EFF (a : Nat) : Fld := ⟨0x6020000 + 0x400 * a, 1, 1, 1⟩
abbrev F.MEM_WALL_CFG_REBUILD_GBPS (a : Nat) : Fld := ⟨0x6020000 + 0x400 * a, 8, 9, 20⟩
abbrev F.MEM_WALL_STATUS_STATE (a : Nat) : Fld := ⟨0x6020004 + 0x400 * a, 0, 3, 0⟩
abbrev F.MEM_WALL_STATUS_MISSING (a : Nat) : Fld := ⟨0x6020004 + 0x400 * a, 4, 4, 15⟩
abbrev F.MEM_WALL_STATUS_SECOND (a : Nat) : Fld := ⟨0x6020004 + 0x400 * a, 8, 4, 15⟩
abbrev F.MEM_WALL_MAP_BASE (a : Nat) : Fld := ⟨0x6020008 + 0x400 * a, 0, 40, a * 0x4200000000⟩
abbrev F.MEM_WALL_MAP_SIZE_GIB (a : Nat) : Fld := ⟨0x6020008 + 0x400 * a, 40, 9, 264⟩
abbrev F.MEM_WALL_REBUILD_STRIPE (a : Nat) : Fld := ⟨0x6020010 + 0x400 * a, 0, 27, 0⟩
abbrev F.MEM_WALL_CNT_FULL_STRIPE (a : Nat) : Fld := ⟨0x6020040 + 0x400 * a, 0, 64, 0⟩
abbrev F.MEM_WALL_CNT_PARTIAL (a : Nat) : Fld := ⟨0x6020048 + 0x400 * a, 0, 64, 0⟩
abbrev F.MEM_WALL_CNT_ASM_TIMEOUT (a : Nat) : Fld := ⟨0x6020050 + 0x400 * a, 0, 64, 0⟩
abbrev F.MEM_WALL_CNT_ASM_EVICT (a : Nat) : Fld := ⟨0x6020058 + 0x400 * a, 0, 64, 0⟩
abbrev F.MEM_WALL_CNT_LOCK_WAIT (a : Nat) : Fld := ⟨0x6020060 + 0x400 * a, 0, 64, 0⟩
abbrev F.MEM_WALL_CNT_RECON_READS (a : Nat) : Fld := ⟨0x6020068 + 0x400 * a, 0, 64, 0⟩
abbrev F.MEM_WALL_CNT_REBUILT (a : Nat) : Fld := ⟨0x6020070 + 0x400 * a, 0, 64, 0⟩
abbrev F.MEM_WALL_CNT_UNCORRECTABLE (a : Nat) : Fld := ⟨0x6020078 + 0x400 * a, 0, 64, 0⟩
abbrev F.MEM_CLEAR_BOOT_CLEAR : Fld := ⟨0x6030000, 0, 1, 1⟩
abbrev F.MEM_CLEAR_CLEARED : Fld := ⟨0x6030000, 1, 1, 0⟩
abbrev F.MEM_CLEAR_CLEARING : Fld := ⟨0x6030000, 2, 1, 0⟩
abbrev F.MEM_ASM_CFG_TIMEOUT_NS : Fld := ⟨0x6030004, 0, 12, 2000⟩
abbrev F.MEM_SCRUB_EN : Fld := ⟨0x6030008, 0, 1, 1⟩
abbrev F.MEM_SCRUB_INTERVAL_H : Fld := ⟨0x6030008, 8, 8, 24⟩

/-- One row of the register map: the register, the offset of its first copy, the strides and counts of its two indices,
whether it is 64 bits wide, and its fields, each with its access type, as functions of the two indices. -/
structure RegDecl where
  reg : Reg
  base : Nat
  stride1 : Nat
  count1 : Nat
  stride2 : Nat
  count2 : Nat
  wide : Bool
  fields : List (Access × (Nat → Nat → Fld))

/-- Register map, part 0. -/
def regTable0 : List RegDecl :=
  [ ⟨.HOST_ID, 0x0000000, 0x1, 1, 0x1, 1, false, [(.ro, fun _ _ => F.HOST_ID_DEVICE), (.ro, fun _ _ => F.HOST_ID_STEPPING)]⟩,
    ⟨.HOST_LINK, 0x0000008, 0x1, 1, 0x1, 1, false, [(.ro, fun _ _ => F.HOST_LINK_GEN), (.ro, fun _ _ => F.HOST_LINK_WIDTH), (.ro, fun _ _ => F.HOST_LINK_FLIT), (.ro, fun _ _ => F.HOST_LINK_IDE_LINK), (.ro, fun _ _ => F.HOST_LINK_IDE_SEL)]⟩,
    ⟨.HOST_SETUP_LOCK, 0x0000010, 0x1, 1, 0x1, 1, false, [(.w1s, fun _ _ => F.HOST_SETUP_LOCK_LOCKED)]⟩,
    ⟨.HOST_PART_CFG, 0x0000018, 0x1, 1, 0x1, 1, false, [(.rwl, fun _ _ => F.HOST_PART_CFG_LAYOUT)]⟩,
    ⟨.HOST_PART_STATE, 0x0000100, 0x8, 4, 0x1, 1, false, [(.rw, fun a _ => F.HOST_PART_STATE_EN a), (.ro, fun a _ => F.HOST_PART_STATE_STATE a), (.ro, fun a _ => F.HOST_PART_STATE_ENABLE_PENDING a), (.ro, fun a _ => F.HOST_PART_STATE_HELD a), (.w1c, fun a _ => F.HOST_PART_STATE_START_FAULT a), (.ro, fun a _ => F.HOST_PART_STATE_HOLD_CAUSE a), (.ro, fun a _ => F.HOST_PART_STATE_STARTS a)]⟩,
    ⟨.HOST_FN_CFG, 0x0000200, 0x8, 64, 0x1, 1, true, [(.rwl, fun a _ => F.HOST_FN_CFG_PARTITION a), (.rwl, fun a _ => F.HOST_FN_CFG_CTX_FIRST a), (.rwl, fun a _ => F.HOST_FN_CFG_CTX_COUNT a)]⟩,
    ⟨.HOST_FN_BAR4, 0x0000400, 0x8, 64, 0x1, 1, true, [(.rw, fun a _ => F.HOST_FN_BAR4_BASE a)]⟩,
    ⟨.HOST_CTX_STAGE, 0x0001000, 0x8, 8, 0x1, 1, true, [(.rw, fun a _ => F.HOST_CTX_STAGE_DATA a)]⟩,
    ⟨.HOST_CTX_COMMIT, 0x0001040, 0x1, 1, 0x1, 1, false, [(.wo, fun _ _ => F.HOST_CTX_COMMIT_CONTEXT)]⟩,
    ⟨.HOST_CTX_COMMIT_STATUS, 0x0001044, 0x1, 1, 0x1, 1, false, [(.ro, fun _ _ => F.HOST_CTX_COMMIT_STATUS_RESULT), (.ro, fun _ _ => F.HOST_CTX_COMMIT_STATUS_CONTEXT)]⟩,
    ⟨.HOST_QS_CFG, 0x0002000, 0x1, 1, 0x1, 1, false, [(.rw, fun _ _ => F.HOST_QS_CFG_BUSY_THRESHOLD), (.rw, fun _ _ => F.HOST_QS_CFG_IDLE_US)]⟩,
    ⟨.HOST_QS_STATUS, 0x0002008, 0x8, 2, 0x1, 1, true, [(.ro, fun a _ => F.HOST_QS_STATUS_RESIDENT a), (.ro, fun a _ => F.HOST_QS_STATUS_PINNED a), (.ro, fun a _ => F.HOST_QS_STATUS_PENDING a), (.ro, fun a _ => F.HOST_QS_STATUS_BUSY_ACTIVE a), (.ro, fun a _ => F.HOST_QS_STATUS_SCHED_ON a)]⟩,
    ⟨.HOST_CNT_ACCESS_ERR, 0x0003000, 0x1, 1, 0x1, 1, true, [(.ro, fun _ _ => F.HOST_CNT_ACCESS_ERR)]⟩,
    ⟨.HOST_CNT_DOORBELLS, 0x0003008, 0x1, 1, 0x1, 1, true, [(.ro, fun _ _ => F.HOST_CNT_DOORBELLS)]⟩,
    ⟨.HOST_CNT_DB_COALESCED, 0x0003010, 0x1, 1, 0x1, 1, true, [(.ro, fun _ _ => F.HOST_CNT_DB_COALESCED)]⟩,
    ⟨.HOST_CNT_SHADOW_READS, 0x0003018, 0x1, 1, 0x1, 1, true, [(.ro, fun _ _ => F.HOST_CNT_SHADOW_READS)]⟩,
    ⟨.HOST_CNT_DESC_FETCHED, 0x0003020, 0x1, 1, 0x1, 1, true, [(.ro, fun _ _ => F.HOST_CNT_DESC_FETCHED)]⟩,
    ⟨.HOST_CNT_DESC_COMPLETED, 0x0003028, 0x1, 1, 0x1, 1, true, [(.ro, fun _ _ => F.HOST_CNT_DESC_COMPLETED)]⟩,
    ⟨.HOST_CNT_ADMISSIONS, 0x0003030, 0x1, 1, 0x1, 1, true, [(.ro, fun _ _ => F.HOST_CNT_ADMISSIONS)]⟩,
    ⟨.HOST_CNT_EVICTIONS, 0x0003038, 0x1, 1, 0x1, 1, true, [(.ro, fun _ _ => F.HOST_CNT_EVICTIONS)]⟩,
    ⟨.HOST_CNT_BUSY, 0x0003040, 0x1, 1, 0x1, 1, true, [(.ro, fun _ _ => F.HOST_CNT_BUSY)]⟩,
    ⟨.HOST_CNT_DMA_TRANSIENT, 0x0003048, 0x1, 1, 0x1, 1, true, [(.ro, fun _ _ => F.HOST_CNT_DMA_TRANSIENT)]⟩,
    ⟨.HOST_CNT_DMA_LASTING, 0x0003050, 0x1, 1, 0x1, 1, true, [(.ro, fun _ _ => F.HOST_CNT_DMA_LASTING)]⟩,
    ⟨.HOST_CNT_BAR4_DENIED, 0x0003058, 0x1, 1, 0x1, 1, true, [(.ro, fun _ _ => F.HOST_CNT_BAR4_DENIED)]⟩,
    ⟨.HOST_CNT_MSIX, 0x0003060, 0x1, 1, 0x1, 1, true, [(.ro, fun _ _ => F.HOST_CNT_MSIX)]⟩,
    ⟨.FW_MBOX_STATUS, 0x0100000, 0x1, 1, 0x1, 1, false, [(.ro, fun _ _ => F.FW_MBOX_STATUS_STAGE), (.ro, fun _ _ => F.FW_MBOX_STATUS_BUSY), (.ro, fun _ _ => F.FW_MBOX_STATUS_RESULT)]⟩,
    ⟨.FW_MBOX_CMD, 0x0100004, 0x1, 1, 0x1, 1, false, [(.wo, fun _ _ => F.FW_MBOX_CMD_CMD)]⟩,
    ⟨.FW_MBOX_IMAGE_ADDR, 0x0100008, 0x1, 1, 0x1, 1, true, [(.rw, fun _ _ => F.FW_MBOX_IMAGE_ADDR_ADDR)]⟩,
    ⟨.FW_MBOX_IMAGE_BYTES, 0x0100010, 0x1, 1, 0x1, 1, false, [(.rw, fun _ _ => F.FW_MBOX_IMAGE_BYTES_BYTES)]⟩,
    ⟨.FW_FEAT_REQ, 0x0100018, 0x1, 1, 0x1, 1, true, [(.rw, fun _ _ => F.FW_FEAT_REQ)]⟩,
    ⟨.FW_FEAT_SUP, 0x0100020, 0x1, 1, 0x1, 1, true, [(.ro, fun _ _ => F.FW_FEAT_SUP)]⟩,
    ⟨.FW_FEAT_ON, 0x0100028, 0x1, 1, 0x1, 1, true, [(.ro, fun _ _ => F.FW_FEAT_ON)]⟩,
    ⟨.FW_VERSION, 0x0100030, 0x1, 1, 0x1, 1, true, [(.ro, fun _ _ => F.FW_VERSION_RUNTIME), (.ro, fun _ _ => F.FW_VERSION_LOADER), (.ro, fun _ _ => F.FW_VERSION_SVN)]⟩,
    ⟨.FW_SVC_NONCE, 0x0100040, 0x8, 4, 0x1, 1, true, [(.ro, fun a _ => F.FW_SVC_NONCE_NONCE a)]⟩,
    ⟨.FW_EVENT, 0x0100060, 0x1, 1, 0x1, 1, false, [(.w1c, fun _ _ => F.FW_EVENT_PROC_RESTART), (.w1c, fun _ _ => F.FW_EVENT_PROC_LASTING), (.w1c, fun _ _ => F.FW_EVENT_TAMPER), (.w1c, fun _ _ => F.FW_EVENT_LC_CHANGE), (.w1c, fun _ _ => F.FW_EVENT_BOOT_DEGRADED), (.w1c, fun _ _ => F.FW_EVENT_REVOKED)]⟩,
    ⟨.FW_EVENT_MASK, 0x0100064, 0x1, 1, 0x1, 1, false, [(.rw, fun _ _ => F.FW_EVENT_MASK_MASK)]⟩,
    ⟨.FW_LOG_BASE, 0x0100080, 0x1, 1, 0x1, 1, true, [(.rw, fun _ _ => F.FW_LOG_BASE_BASE)]⟩,
    ⟨.FW_LOG_CTRL, 0x0100088, 0x1, 1, 0x1, 1, false, [(.rw, fun _ _ => F.FW_LOG_CTRL_EN), (.rw, fun _ _ => F.FW_LOG_CTRL_MIN_LEVEL), (.rw, fun _ _ => F.FW_LOG_CTRL_LOG2)]⟩,
    ⟨.FW_LOG_SEQ, 0x0100090, 0x1, 1, 0x1, 1, true, [(.ro, fun _ _ => F.FW_LOG_SEQ)]⟩,
    ⟨.FW_LOG_CNT_DROPPED, 0x0100098, 0x1, 1, 0x1, 1, true, [(.ro, fun _ _ => F.FW_LOG_CNT_DROPPED)]⟩ ]

/-- Register map, part 1. -/
def regTable1 : List RegDecl :=
  [ ⟨.FW_PROC_STATE, 0x0101000, 0x100, 6, 0x1, 1, false, [(.rw, fun a _ => F.FW_PROC_STATE_EN a), (.ro, fun a _ => F.FW_PROC_STATE_STATE a), (.ro, fun a _ => F.FW_PROC_STATE_ENABLE_PENDING a), (.ro, fun a _ => F.FW_PROC_STATE_HELD a), (.w1c, fun a _ => F.FW_PROC_STATE_START_FAULT a), (.ro, fun a _ => F.FW_PROC_STATE_HOLD_CAUSE a), (.ro, fun a _ => F.FW_PROC_STATE_STARTS a)]⟩,
    ⟨.FW_PROC_STATUS, 0x0101004, 0x100, 6, 0x1, 1, false, [(.ro, fun a _ => F.FW_PROC_STATUS_LASTING a), (.ro, fun a _ => F.FW_PROC_STATUS_RECENT a), (.ro, fun a _ => F.FW_PROC_STATUS_HEARTBEAT a)]⟩,
    ⟨.FW_PROC_WDT, 0x0101008, 0x100, 6, 0x1, 1, false, [(.ro, fun a _ => F.FW_PROC_WDT_TIMEOUT_MS a)]⟩,
    ⟨.FW_PROC_RESTART, 0x010100c, 0x100, 6, 0x1, 1, false, [(.wo, fun a _ => F.FW_PROC_RESTART_RESTART a)]⟩,
    ⟨.FW_TRACE_MASK, 0x0101010, 0x100, 6, 0x1, 1, true, [(.rw, fun a _ => F.FW_TRACE_MASK_GROUPS a)]⟩,
    ⟨.FW_PROC_CNT_RESTARTS, 0x0101040, 0x100, 6, 0x1, 1, true, [(.ro, fun a _ => F.FW_PROC_CNT_RESTARTS a)]⟩,
    ⟨.FW_PROC_CNT_WDT, 0x0101048, 0x100, 6, 0x1, 1, true, [(.ro, fun a _ => F.FW_PROC_CNT_WDT a)]⟩,
    ⟨.LCS_STATE, 0x0200000, 0x1, 1, 0x1, 1, false, [(.ro, fun _ _ => F.LCS_STATE_STATE), (.ro, fun _ _ => F.LCS_STATE_CHANGING), (.ro, fun _ _ => F.LCS_STATE_TARGET), (.ro, fun _ _ => F.LCS_STATE_DEBUG_OPEN)]⟩,
    ⟨.LCS_TAMPER, 0x0200008, 0x1, 1, 0x1, 1, false, [(.w1c, fun _ _ => F.LCS_TAMPER_LATCHED), (.ro, fun _ _ => F.LCS_TAMPER_LIVE)]⟩,
    ⟨.LCS_CNT_TAMPER, 0x0200010, 0x1, 1, 0x1, 1, true, [(.ro, fun _ _ => F.LCS_CNT_TAMPER)]⟩,
    ⟨.FUSE_SKU, 0x0280000, 0x1, 1, 0x1, 1, false, [(.ro, fun _ _ => F.FUSE_SKU_CEILING_W), (.ro, fun _ _ => F.FUSE_SKU_STEPPING)]⟩,
    ⟨.FUSE_SERIAL, 0x0280008, 0x1, 1, 0x1, 1, true, [(.ro, fun _ _ => F.FUSE_SERIAL_SERIAL)]⟩,
    ⟨.FUSE_ROOT_STATUS, 0x0280010, 0x1, 1, 0x1, 1, false, [(.ro, fun _ _ => F.FUSE_ROOT_STATUS_VALID), (.ro, fun _ _ => F.FUSE_ROOT_STATUS_REVOKED)]⟩,
    ⟨.FUSE_SVN, 0x0280018, 0x1, 1, 0x1, 1, false, [(.ro, fun _ _ => F.FUSE_SVN_SVN)]⟩,
    ⟨.FUSE_TIME, 0x0280020, 0x1, 1, 0x1, 1, false, [(.ro, fun _ _ => F.FUSE_TIME_HOLDOVER_NS_S)]⟩,
    ⟨.FUSE_REPAIR, 0x0280028, 0x1, 1, 0x1, 1, false, [(.ro, fun _ _ => F.FUSE_REPAIR_FREE), (.ro, fun _ _ => F.FUSE_REPAIR_CANDIDATES)]⟩,
    ⟨.FUSE_STATUS, 0x0280030, 0x1, 1, 0x1, 1, false, [(.ro, fun _ _ => F.FUSE_STATUS_BURNING), (.ro, fun _ _ => F.FUSE_STATUS_LAST_FAILED), (.ro, fun _ _ => F.FUSE_STATUS_FIELD), (.ro, fun _ _ => F.FUSE_STATUS_PARITY_ERR)]⟩,
    ⟨.FUSE_CNT_BURNS, 0x0280038, 0x1, 1, 0x1, 1, true, [(.ro, fun _ _ => F.FUSE_CNT_BURNS)]⟩,
    ⟨.FUSE_ROOT_HASH, 0x0280100, 0x20, 4, 0x8, 4, true, [(.ro, fun a b => F.FUSE_ROOT_HASH_HASH a b)]⟩,
    ⟨.FUSE_ID_PUBKEY, 0x0280200, 0x8, 8, 0x1, 1, true, [(.ro, fun a _ => F.FUSE_ID_PUBKEY_KEY a)]⟩,
    ⟨.PWR_CAP, 0x0300000, 0x1, 1, 0x1, 1, false, [(.rw, fun _ _ => F.PWR_CAP_CAP_W)]⟩,
    ⟨.PWR_CAP_SIDEBAND, 0x0300004, 0x1, 1, 0x1, 1, false, [(.ro, fun _ _ => F.PWR_CAP_SIDEBAND_CAP_W)]⟩,
    ⟨.PWR_CAP_EFFECTIVE, 0x0300008, 0x1, 1, 0x1, 1, false, [(.ro, fun _ _ => F.PWR_CAP_EFFECTIVE_CAP_W), (.ro, fun _ _ => F.PWR_CAP_EFFECTIVE_TOL_W)]⟩,
    ⟨.PWR_STATUS, 0x0300010, 0x1, 1, 0x1, 1, false, [(.ro, fun _ _ => F.PWR_STATUS_CAP_BELOW_FLOOR), (.ro, fun _ _ => F.PWR_STATUS_CAP_UNATTAINABLE), (.w1c, fun _ _ => F.PWR_STATUS_CAP_REFUSED), (.ro, fun _ _ => F.PWR_STATUS_THERMAL_LIMITED), (.ro, fun _ _ => F.PWR_STATUS_DROOP_LIMITED), (.ro, fun _ _ => F.PWR_STATUS_THROTTLED), (.ro, fun _ _ => F.PWR_STATUS_GOV_ABSENT), (.ro, fun _ _ => F.PWR_STATUS_POWER_W)]⟩,
    ⟨.PWR_GOV_CFG, 0x0300014, 0x1, 1, 0x1, 1, false, [(.rw, fun _ _ => F.PWR_GOV_CFG_POLICY), (.rw, fun _ _ => F.PWR_GOV_CFG_PARK_UNIT), (.rw, fun _ _ => F.PWR_GOV_CFG_ROTATE), (.rw, fun _ _ => F.PWR_GOV_CFG_RAISE_WINDOWS)]⟩,
    ⟨.PWR_CNT_OVER_WINDOWS, 0x0300040, 0x1, 1, 0x1, 1, true, [(.ro, fun _ _ => F.PWR_CNT_OVER_WINDOWS)]⟩,
    ⟨.PWR_MODULE_ENERGY, 0x0300048, 0x1, 1, 0x1, 1, true, [(.ro, fun _ _ => F.PWR_MODULE_ENERGY)]⟩,
    ⟨.PWR_PART_ENERGY, 0x0300060, 0x8, 4, 0x1, 1, true, [(.ro, fun a _ => F.PWR_PART_ENERGY a)]⟩,
    ⟨.PWR_OPP, 0x0300800, 0x4, 8, 0x1, 1, false, [(.ro, fun a _ => F.PWR_OPP_FREQ_MHZ a), (.ro, fun a _ => F.PWR_OPP_VOLT_MV a)]⟩,
    ⟨.PWR_DIE_REQ, 0x0301000, 0x100, 4, 0x1, 1, false, [(.rw, fun a _ => F.PWR_DIE_REQ_REQ_OP a)]⟩,
    ⟨.PWR_DIE_OP, 0x0301004, 0x100, 4, 0x1, 1, false, [(.ro, fun a _ => F.PWR_DIE_OP_OP a), (.ro, fun a _ => F.PWR_DIE_OP_CAP_OP a), (.ro, fun a _ => F.PWR_DIE_OP_THERM_OP a), (.ro, fun a _ => F.PWR_DIE_OP_TRANSITION a), (.ro, fun a _ => F.PWR_DIE_OP_DUTY a), (.ro, fun a _ => F.PWR_DIE_OP_VOLT_MV a)]⟩,
    ⟨.PWR_DIE_PARK, 0x0301008, 0x100, 4, 0x1, 1, false, [(.ro, fun a _ => F.PWR_DIE_PARK_COUNT a), (.ro, fun a _ => F.PWR_DIE_PARK_FIRST a)]⟩,
    ⟨.PWR_DIE_DROOP_CFG, 0x030100c, 0x100, 4, 0x1, 1, false, [(.rw, fun a _ => F.PWR_DIE_DROOP_CFG_DROOP_MV a)]⟩,
    ⟨.PWR_DIE_STAGGER, 0x0301010, 0x100, 4, 0x1, 1, false, [(.rw, fun a _ => F.PWR_DIE_STAGGER_MODE a), (.rw, fun a _ => F.PWR_DIE_STAGGER_THRESH a)]⟩,
    ⟨.PWR_DIE_POWER, 0x0301014, 0x100, 4, 0x1, 1, false, [(.ro, fun a _ => F.PWR_DIE_POWER_EST_W a)]⟩,
    ⟨.PWR_DIE_CNT_DROOP, 0x0301040, 0x100, 4, 0x1, 1, true, [(.ro, fun a _ => F.PWR_DIE_CNT_DROOP a)]⟩,
    ⟨.PWR_DIE_CNT_STRETCH, 0x0301048, 0x100, 4, 0x1, 1, true, [(.ro, fun a _ => F.PWR_DIE_CNT_STRETCH a)]⟩,
    ⟨.PWR_DIE_CNT_OP_CHANGES, 0x0301050, 0x100, 4, 0x1, 1, true, [(.ro, fun a _ => F.PWR_DIE_CNT_OP_CHANGES a)]⟩,
    ⟨.PWR_DIE_CNT_DUTY_LOST, 0x0301058, 0x100, 4, 0x1, 1, true, [(.ro, fun a _ => F.PWR_DIE_CNT_DUTY_LOST a)]⟩,
    ⟨.PWR_DIE_CNT_PARKED, 0x0301060, 0x100, 4, 0x1, 1, true, [(.ro, fun a _ => F.PWR_DIE_CNT_PARKED a)]⟩ ]

/-- Register map, part 2. -/
def regTable2 : List RegDecl :=
  [ ⟨.PWR_CTX_ENERGY, 0x0310000, 0x8, 16384, 0x1, 1, true, [(.ro, fun a _ => F.PWR_CTX_ENERGY a)]⟩,
    ⟨.THM_LIMITS, 0x0400000, 0x1, 1, 0x1, 1, false, [(.rw, fun _ _ => F.THM_LIMITS_CORE_THROT_C), (.ro, fun _ _ => F.THM_LIMITS_CORE_HOLD_C), (.ro, fun _ _ => F.THM_LIMITS_TRIP_C), (.rw, fun _ _ => F.THM_LIMITS_STACK_THROT_C)]⟩,
    ⟨.THM_LIMITS2, 0x0400004, 0x1, 1, 0x1, 1, false, [(.ro, fun _ _ => F.THM_LIMITS2_STACK_TRIP_C), (.ro, fun _ _ => F.THM_LIMITS2_HYST_C), (.rw, fun _ _ => F.THM_LIMITS2_INLET_WARN_C)]⟩,
    ⟨.THM_BOARD, 0x0400008, 0x1, 1, 0x1, 1, false, [(.ro, fun _ _ => F.THM_BOARD_INLET_C), (.ro, fun _ _ => F.THM_BOARD_IO_DIE_C), (.ro, fun _ _ => F.THM_BOARD_STAGE_C), (.ro, fun _ _ => F.THM_BOARD_INLET_HIGH)]⟩,
    ⟨.THM_TRIP, 0x040000c, 0x1, 1, 0x1, 1, false, [(.w1c, fun _ _ => F.THM_TRIP_TRIPPED), (.ro, fun _ _ => F.THM_TRIP_SOURCE), (.ro, fun _ _ => F.THM_TRIP_SENSOR), (.ro, fun _ _ => F.THM_TRIP_READING_C)]⟩,
    ⟨.THM_CNT_THROTTLE, 0x0400040, 0x1, 1, 0x1, 1, true, [(.ro, fun _ _ => F.THM_CNT_THROTTLE)]⟩,
    ⟨.THM_CNT_HOLD, 0x0400048, 0x1, 1, 0x1, 1, true, [(.ro, fun _ _ => F.THM_CNT_HOLD)]⟩,
    ⟨.THM_DIE, 0x0400100, 0x20, 4, 0x1, 1, false, [(.ro, fun a _ => F.THM_DIE_HOTSPOT_C a), (.ro, fun a _ => F.THM_DIE_DIE_C a), (.ro, fun a _ => F.THM_DIE_THERM_OP a), (.ro, fun a _ => F.THM_DIE_THROTTLING a), (.ro, fun a _ => F.THM_DIE_HELD a)]⟩,
    ⟨.THM_CORE_TEMP, 0x0401000, 0x4, 256, 0x1, 1, false, [(.ro, fun a _ => F.THM_CORE_TEMP_TEMP_C a), (.ro, fun a _ => F.THM_CORE_TEMP_MAX_C a), (.ro, fun a _ => F.THM_CORE_TEMP_HOT a), (.ro, fun a _ => F.THM_CORE_TEMP_HELD a)]⟩,
    ⟨.HLT_SLICE_CFG, 0x0500000, 0x1, 1, 0x1, 1, false, [(.rw, fun _ _ => F.HLT_SLICE_CFG_EN), (.rw, fun _ _ => F.HLT_SLICE_CFG_SP_EN), (.rw, fun _ _ => F.HLT_SLICE_CFG_DP_EN), (.rw, fun _ _ => F.HLT_SLICE_CFG_MACRO_MS), (.rw, fun _ _ => F.HLT_SLICE_CFG_BANK_MS)]⟩,
    ⟨.HLT_CHECK_CFG, 0x0500008, 0x1, 1, 0x1, 1, false, [(.rw, fun _ _ => F.HLT_CHECK_CFG_MODE), (.rw, fun _ _ => F.HLT_CHECK_CFG_JOB_ACTION), (.rw, fun _ _ => F.HLT_CHECK_CFG_KS_INTERVAL), (.rw, fun _ _ => F.HLT_CHECK_CFG_MARGIN), (.rw, fun _ _ => F.HLT_CHECK_CFG_ALARM_COUNT), (.rw, fun _ _ => F.HLT_CHECK_CFG_LEARN_LOG2)]⟩,
    ⟨.HLT_CHECK_STATUS, 0x050000c, 0x1, 1, 0x1, 1, false, [(.ro, fun _ _ => F.HLT_CHECK_STATUS_MODE_EFF), (.ro, fun _ _ => F.HLT_CHECK_STATUS_ALARM_ACTIVE), (.ro, fun _ _ => F.HLT_CHECK_STATUS_TRACKED)]⟩,
    ⟨.HLT_EVENT, 0x0500010, 0x1, 1, 0x1, 1, false, [(.w1c, fun _ _ => F.HLT_EVENT_FAIL_RECORD), (.w1c, fun _ _ => F.HLT_EVENT_REPAIR), (.w1c, fun _ _ => F.HLT_EVENT_ALARM), (.w1c, fun _ _ => F.HLT_EVENT_WEIGHT_LOST), (.w1c, fun _ _ => F.HLT_EVENT_SPARES_LOW), (.w1c, fun _ _ => F.HLT_EVENT_MAPPED_OUT), (.w1c, fun _ _ => F.HLT_EVENT_CANDIDATE), (.w1c, fun _ _ => F.HLT_EVENT_TE_DONE)]⟩,
    ⟨.HLT_EVENT_MASK, 0x0500014, 0x1, 1, 0x1, 1, false, [(.rw, fun _ _ => F.HLT_EVENT_MASK_MASK)]⟩,
    ⟨.HLT_FAIL_INDEX, 0x0500018, 0x1, 1, 0x1, 1, true, [(.ro, fun _ _ => F.HLT_FAIL_INDEX_PRODUCED), (.rw, fun _ _ => F.HLT_FAIL_INDEX_CONSUMED)]⟩,
    ⟨.HLT_WEIGHT_LOST, 0x0500020, 0x1, 1, 0x1, 1, true, [(.ro, fun _ _ => F.HLT_WEIGHT_LOST_CORE), (.ro, fun _ _ => F.HLT_WEIGHT_LOST_MACRO), (.ro, fun _ _ => F.HLT_WEIGHT_LOST_BANK), (.ro, fun _ _ => F.HLT_WEIGHT_LOST_WSID), (.ro, fun _ _ => F.HLT_WEIGHT_LOST_COURSE_LOW)]⟩,
    ⟨.HLT_CNT_SLICES, 0x0500040, 0x1, 1, 0x1, 1, true, [(.ro, fun _ _ => F.HLT_CNT_SLICES)]⟩,
    ⟨.HLT_CNT_SLICE_ABANDONED, 0x0500048, 0x1, 1, 0x1, 1, true, [(.ro, fun _ _ => F.HLT_CNT_SLICE_ABANDONED)]⟩,
    ⟨.HLT_CNT_SLICE_TRANSIENT, 0x0500050, 0x1, 1, 0x1, 1, true, [(.ro, fun _ _ => F.HLT_CNT_SLICE_TRANSIENT)]⟩,
    ⟨.HLT_CNT_SOFT_REPAIRS, 0x0500058, 0x1, 1, 0x1, 1, true, [(.ro, fun _ _ => F.HLT_CNT_SOFT_REPAIRS)]⟩,
    ⟨.HLT_CNT_ROWS_REBUILT, 0x0500060, 0x1, 1, 0x1, 1, true, [(.ro, fun _ _ => F.HLT_CNT_ROWS_REBUILT)]⟩,
    ⟨.HLT_CNT_WEIGHT_LOST, 0x0500068, 0x1, 1, 0x1, 1, true, [(.ro, fun _ _ => F.HLT_CNT_WEIGHT_LOST)]⟩,
    ⟨.HLT_CNT_KS_CHECKS, 0x0500070, 0x1, 1, 0x1, 1, true, [(.ro, fun _ _ => F.HLT_CNT_KS_CHECKS)]⟩,
    ⟨.HLT_CNT_KS_SKIPPED, 0x0500078, 0x1, 1, 0x1, 1, true, [(.ro, fun _ _ => F.HLT_CNT_KS_SKIPPED)]⟩,
    ⟨.HLT_CNT_KS_MISMATCH, 0x0500080, 0x1, 1, 0x1, 1, true, [(.ro, fun _ _ => F.HLT_CNT_KS_MISMATCH)]⟩,
    ⟨.HLT_CNT_RANGE_BLOCKS, 0x0500088, 0x1, 1, 0x1, 1, true, [(.ro, fun _ _ => F.HLT_CNT_RANGE_BLOCKS)]⟩,
    ⟨.HLT_CNT_OUTLIERS, 0x0500090, 0x1, 1, 0x1, 1, true, [(.ro, fun _ _ => F.HLT_CNT_OUTLIERS)]⟩,
    ⟨.HLT_CNT_ALARMS, 0x0500098, 0x1, 1, 0x1, 1, true, [(.ro, fun _ _ => F.HLT_CNT_ALARMS)]⟩,
    ⟨.HLT_CNT_FAIL_DROPPED, 0x05000a0, 0x1, 1, 0x1, 1, true, [(.ro, fun _ _ => F.HLT_CNT_FAIL_DROPPED)]⟩,
    ⟨.HLT_TE_CMD, 0x0500100, 0x1, 1, 0x1, 1, true, [(.rw, fun _ _ => F.HLT_TE_CMD_TARGET), (.rw, fun _ _ => F.HLT_TE_CMD_DIE), (.rw, fun _ _ => F.HLT_TE_CMD_STOP_ON_FAIL), (.rw, fun _ _ => F.HLT_TE_CMD_UNIT), (.rw, fun _ _ => F.HLT_TE_CMD_ELEMENT), (.rw, fun _ _ => F.HLT_TE_CMD_ALGO), (.rw, fun _ _ => F.HLT_TE_CMD_COUNT)]⟩,
    ⟨.HLT_TE_PATTERN, 0x0500108, 0x1, 1, 0x1, 1, true, [(.rw, fun _ _ => F.HLT_TE_PATTERN)]⟩,
    ⟨.HLT_TE_START, 0x0500110, 0x1, 1, 0x1, 1, true, [(.rw, fun _ _ => F.HLT_TE_START)]⟩,
    ⟨.HLT_TE_STATUS, 0x0500118, 0x1, 1, 0x1, 1, false, [(.ro, fun _ _ => F.HLT_TE_STATUS_BUSY), (.ro, fun _ _ => F.HLT_TE_STATUS_DONE), (.ro, fun _ _ => F.HLT_TE_STATUS_FAIL), (.w1c, fun _ _ => F.HLT_TE_STATUS_REFUSED), (.ro, fun _ _ => F.HLT_TE_STATUS_FAILS)]⟩,
    ⟨.HLT_FAIL, 0x0500400, 0x20, 64, 0x8, 4, true, [(.ro, fun a b => F.HLT_FAIL_DATA a b)]⟩,
    ⟨.HLT_CAND, 0x0500c00, 0x8, 256, 0x1, 1, true, [(.ro, fun a _ => F.HLT_CAND_DATA a)]⟩,
    ⟨.HLT_DIE, 0x0501800, 0x10, 4, 0x1, 1, false, [(.ro, fun a _ => F.HLT_DIE_SPARE_CORES a), (.ro, fun a _ => F.HLT_DIE_SPARE_BANKS a), (.ro, fun a _ => F.HLT_DIE_DP_BANK a), (.ro, fun a _ => F.HLT_DIE_DP_PHASE a)]⟩,
    ⟨.HLT_CORE_SLICE, 0x0502000, 0x10, 256, 0x1, 1, false, [(.ro, fun a _ => F.HLT_CORE_SLICE_MACRO a), (.ro, fun a _ => F.HLT_CORE_SLICE_PHASE a), (.ro, fun a _ => F.HLT_CORE_SLICE_SPARE a), (.ro, fun a _ => F.HLT_CORE_SLICE_TARGETED a), (.ro, fun a _ => F.HLT_CORE_SLICE_SP_BANK a), (.ro, fun a _ => F.HLT_CORE_SLICE_SP_PHASE a), (.ro, fun a _ => F.HLT_CORE_SLICE_SPARES_FREE a), (.ro, fun a _ => F.HLT_CORE_SLICE_MAPPED_OUT a)]⟩,
    ⟨.HLT_CORE_PASS, 0x0502008, 0x10, 256, 0x1, 1, false, [(.ro, fun a _ => F.HLT_CORE_PASS_PASSES a)]⟩,
    ⟨.HLT_KS_REF_A, 0x0520000, 0x440, 256, 0x10, 68, true, [(.ro, fun a b => F.HLT_KS_REF_A_EVEN a b), (.ro, fun a b => F.HLT_KS_REF_A_ODD a b)]⟩,
    ⟨.HLT_KS_REF_B, 0x0520008, 0x440, 256, 0x10, 68, true, [(.ro, fun a b => F.HLT_KS_REF_B_EVEN a b), (.ro, fun a b => F.HLT_KS_REF_B_ODD a b)]⟩ ]

/-- Register map, part 3. -/
def regTable3 : List RegDecl :=
  [ ⟨.CTX_ENTRY, 0x1000000, 0x40, 16384, 0x8, 8, true, [(.ro, fun a b => F.CTX_ENTRY a b)]⟩,
    ⟨.CTX_STATE, 0x1100000, 0x40, 16384, 0x1, 1, false, [(.rw, fun a _ => F.CTX_STATE_EN a), (.ro, fun a _ => F.CTX_STATE_STATE a), (.ro, fun a _ => F.CTX_STATE_ENABLE_PENDING a), (.ro, fun a _ => F.CTX_STATE_HELD a), (.w1c, fun a _ => F.CTX_STATE_START_FAULT a), (.ro, fun a _ => F.CTX_STATE_HOLD_CAUSE a), (.ro, fun a _ => F.CTX_STATE_STARTS a)]⟩,
    ⟨.CTX_PROGRESS, 0x1100008, 0x40, 16384, 0x1, 1, true, [(.ro, fun a _ => F.CTX_PROGRESS_FETCHED a), (.ro, fun a _ => F.CTX_PROGRESS_CPL_COUNT a)]⟩,
    ⟨.CTX_STATUS, 0x1100010, 0x40, 16384, 0x1, 1, false, [(.ro, fun a _ => F.CTX_STATUS_RESIDENT a), (.ro, fun a _ => F.CTX_STATUS_PINNED a), (.ro, fun a _ => F.CTX_STATUS_BUSY a), (.ro, fun a _ => F.CTX_STATUS_PENDING_DB a), (.ro, fun a _ => F.CTX_STATUS_CPL_STALL a), (.w1c, fun a _ => F.CTX_STATUS_FAULT a), (.ro, fun a _ => F.CTX_STATUS_INFLIGHT a), (.ro, fun a _ => F.CTX_STATUS_FAULT_CAUSE a)]⟩,
    ⟨.CTX_SHADOW_SEEN, 0x1100018, 0x40, 16384, 0x1, 1, true, [(.ro, fun a _ => F.CTX_SHADOW_SEEN_TAIL a), (.ro, fun a _ => F.CTX_SHADOW_SEEN_CPL_HEAD a)]⟩,
    ⟨.CTX_RESET, 0x1100020, 0x40, 16384, 0x1, 1, false, [(.wo, fun a _ => F.CTX_RESET_RESET a)]⟩,
    ⟨.CTX_CNT_DESC, 0x1100028, 0x40, 16384, 0x1, 1, true, [(.ro, fun a _ => F.CTX_CNT_DESC a)]⟩,
    ⟨.CTX_CNT_DOORBELL, 0x1100030, 0x40, 16384, 0x1, 1, true, [(.ro, fun a _ => F.CTX_CNT_DOORBELL a)]⟩,
    ⟨.CORE_ID, 0x2000000, 0x1000, 256, 0x1, 1, false, [(.ro, fun a _ => F.CORE_ID_LOGICAL a), (.ro, fun a _ => F.CORE_ID_DIE a), (.ro, fun a _ => F.CORE_ID_PHYSICAL a), (.ro, fun a _ => F.CORE_ID_SPARE a)]⟩,
    ⟨.CORE_LINK, 0x2000004, 0x1000, 256, 0x1, 1, false, [(.ro, fun a _ => F.CORE_LINK_PREV_STOPS a), (.ro, fun a _ => F.CORE_LINK_PREV_DIR a), (.ro, fun a _ => F.CORE_LINK_PREV_NONE a), (.ro, fun a _ => F.CORE_LINK_NEXT_STOPS a), (.ro, fun a _ => F.CORE_LINK_NEXT_DIR a), (.ro, fun a _ => F.CORE_LINK_NEXT_NONE a), (.ro, fun a _ => F.CORE_LINK_REROUTED a)]⟩,
    ⟨.CORE_STATE, 0x2000008, 0x1000, 256, 0x1, 1, false, [(.rw, fun a _ => F.CORE_STATE_EN a), (.ro, fun a _ => F.CORE_STATE_STATE a), (.ro, fun a _ => F.CORE_STATE_ENABLE_PENDING a), (.ro, fun a _ => F.CORE_STATE_HELD a), (.w1c, fun a _ => F.CORE_STATE_START_FAULT a), (.ro, fun a _ => F.CORE_STATE_HOLD_CAUSE a), (.ro, fun a _ => F.CORE_STATE_STARTS a)]⟩,
    ⟨.CORE_ACC_STATUS, 0x2000200, 0x1000, 256, 0x1, 1, false, [(.ro, fun a _ => F.CORE_ACC_STATUS_TOTALS_USED a), (.ro, fun a _ => F.CORE_ACC_STATUS_HALVED a), (.ro, fun a _ => F.CORE_ACC_STATUS_CHAIN_WAIT a), (.ro, fun a _ => F.CORE_ACC_STATUS_CHUNKQ_LEVEL a), (.ro, fun a _ => F.CORE_ACC_STATUS_SCALE_WAIT a)]⟩,
    ⟨.CORE_CNT_CHUNKS, 0x2000208, 0x1000, 256, 0x1, 1, true, [(.ro, fun a _ => F.CORE_CNT_CHUNKS a)]⟩,
    ⟨.CORE_CNT_CHUNK_SAT, 0x2000210, 0x1000, 256, 0x1, 1, true, [(.ro, fun a _ => F.CORE_CNT_CHUNK_SAT a)]⟩,
    ⟨.CORE_CNT_SPILLS, 0x2000218, 0x1000, 256, 0x1, 1, true, [(.ro, fun a _ => F.CORE_CNT_SPILLS a)]⟩,
    ⟨.CORE_CNT_RESUMES, 0x2000220, 0x1000, 256, 0x1, 1, true, [(.ro, fun a _ => F.CORE_CNT_RESUMES a)]⟩,
    ⟨.CORE_CNT_REPLAYS, 0x2000228, 0x1000, 256, 0x1, 1, true, [(.ro, fun a _ => F.CORE_CNT_REPLAYS a)]⟩,
    ⟨.CORE_CNT_CHAIN_WAIT, 0x2000230, 0x1000, 256, 0x1, 1, true, [(.ro, fun a _ => F.CORE_CNT_CHAIN_WAIT a)]⟩,
    ⟨.CORE_CNT_SCALE_WAIT, 0x2000238, 0x1000, 256, 0x1, 1, true, [(.ro, fun a _ => F.CORE_CNT_SCALE_WAIT a)]⟩,
    ⟨.FAB_PORT_STATE, 0x2800000, 0x1000, 2, 0x1, 1, false, [(.rw, fun a _ => F.FAB_PORT_STATE_EN a), (.ro, fun a _ => F.FAB_PORT_STATE_STATE a), (.ro, fun a _ => F.FAB_PORT_STATE_ENABLE_PENDING a), (.ro, fun a _ => F.FAB_PORT_STATE_HELD a), (.w1c, fun a _ => F.FAB_PORT_STATE_START_FAULT a), (.ro, fun a _ => F.FAB_PORT_STATE_HOLD_CAUSE a), (.ro, fun a _ => F.FAB_PORT_STATE_STARTS a)]⟩,
    ⟨.FAB_PORT_LINK, 0x2800004, 0x1000, 2, 0x1, 1, false, [(.ro, fun a _ => F.FAB_PORT_LINK_LINK_UP a), (.ro, fun a _ => F.FAB_PORT_LINK_FEC_LOCK a), (.ro, fun a _ => F.FAB_PORT_LINK_LANE_OK a)]⟩,
    ⟨.FAB_PORT_MAC, 0x2800008, 0x1000, 2, 0x1, 1, true, [(.ro, fun a _ => F.FAB_PORT_MAC_MAC a)]⟩,
    ⟨.FAB_PORT_PTP, 0x2800010, 0x1000, 2, 0x1, 1, false, [(.ro, fun a _ => F.FAB_PORT_PTP_ROLE a), (.ro, fun a _ => F.FAB_PORT_PTP_AS_CAPABLE a), (.ro, fun a _ => F.FAB_PORT_PTP_SYNC_OK a), (.ro, fun a _ => F.FAB_PORT_PTP_LINK_DELAY_NS a)]⟩,
    ⟨.FAB_PORT_CNT_TX_FRAMES, 0x2800040, 0x1000, 2, 0x1, 1, true, [(.ro, fun a _ => F.FAB_PORT_CNT_TX_FRAMES a)]⟩,
    ⟨.FAB_PORT_CNT_RX_FRAMES, 0x2800048, 0x1000, 2, 0x1, 1, true, [(.ro, fun a _ => F.FAB_PORT_CNT_RX_FRAMES a)]⟩,
    ⟨.FAB_PORT_CNT_TX_BYTES, 0x2800050, 0x1000, 2, 0x1, 1, true, [(.ro, fun a _ => F.FAB_PORT_CNT_TX_BYTES a)]⟩,
    ⟨.FAB_PORT_CNT_RX_BYTES, 0x2800058, 0x1000, 2, 0x1, 1, true, [(.ro, fun a _ => F.FAB_PORT_CNT_RX_BYTES a)]⟩,
    ⟨.FAB_PORT_CNT_FCS_ERR, 0x2800060, 0x1000, 2, 0x1, 1, true, [(.ro, fun a _ => F.FAB_PORT_CNT_FCS_ERR a)]⟩,
    ⟨.FAB_PORT_CNT_PCRC_ERR, 0x2800068, 0x1000, 2, 0x1, 1, true, [(.ro, fun a _ => F.FAB_PORT_CNT_PCRC_ERR a)]⟩,
    ⟨.FAB_PORT_CNT_OVERSIZE, 0x2800070, 0x1000, 2, 0x1, 1, true, [(.ro, fun a _ => F.FAB_PORT_CNT_OVERSIZE a)]⟩,
    ⟨.FAB_PORT_CNT_DROPPED, 0x2800078, 0x1000, 2, 0x1, 1, true, [(.ro, fun a _ => F.FAB_PORT_CNT_DROPPED a)]⟩,
    ⟨.FAB_PORT_CNT_FEC_CORR, 0x2800080, 0x1000, 2, 0x1, 1, true, [(.ro, fun a _ => F.FAB_PORT_CNT_FEC_CORR a)]⟩,
    ⟨.FAB_PORT_CNT_FEC_UNCORR, 0x2800088, 0x1000, 2, 0x1, 1, true, [(.ro, fun a _ => F.FAB_PORT_CNT_FEC_UNCORR a)]⟩,
    ⟨.FAB_PORT_CNT_RETRAIN, 0x2800090, 0x1000, 2, 0x1, 1, true, [(.ro, fun a _ => F.FAB_PORT_CNT_RETRAIN a)]⟩,
    ⟨.FAB_CFG, 0x2802000, 0x1, 1, 0x1, 1, false, [(.rwl, fun _ _ => F.FAB_CFG_ETHERTYPE), (.rwl, fun _ _ => F.FAB_CFG_PCP), (.rwl, fun _ _ => F.FAB_CFG_VID)]⟩,
    ⟨.FAB_PTP_CFG, 0x2802004, 0x1, 1, 0x1, 1, false, [(.rwl, fun _ _ => F.FAB_PTP_CFG_DOMAIN), (.rwl, fun _ _ => F.FAB_PTP_CFG_LOG_SYNC), (.rw, fun _ _ => F.FAB_PTP_CFG_PPS_EN)]⟩,
    ⟨.FAB_TIME, 0x2802008, 0x1, 1, 0x1, 1, true, [(.ro, fun _ _ => F.FAB_TIME_TIME_NS)]⟩,
    ⟨.FAB_TIME_STATUS, 0x2802010, 0x1, 1, 0x1, 1, false, [(.ro, fun _ _ => F.FAB_TIME_STATUS_STATE), (.ro, fun _ _ => F.FAB_TIME_STATUS_SLAVE_PORT), (.ro, fun _ _ => F.FAB_TIME_STATUS_PPS_SEEN), (.ro, fun _ _ => F.FAB_TIME_STATUS_TIME_ERR_NS)]⟩,
    ⟨.FAB_TIME_LIMIT, 0x2802014, 0x1, 1, 0x1, 1, false, [(.rw, fun _ _ => F.FAB_TIME_LIMIT_LIMIT_NS)]⟩,
    ⟨.FAB_PPS_OFFSET, 0x2802018, 0x1, 1, 0x1, 1, false, [(.ro, fun _ _ => F.FAB_PPS_OFFSET_OFFSET_NS)]⟩ ]

/-- Register map, part 4. -/
def regTable4 : List RegDecl :=
  [ ⟨.FAB_CNT_SLAVE_MOVES, 0x2802040, 0x1, 1, 0x1, 1, true, [(.ro, fun _ _ => F.FAB_CNT_SLAVE_MOVES)]⟩,
    ⟨.FAB_CNT_PPS_MISMATCH, 0x2802048, 0x1, 1, 0x1, 1, true, [(.ro, fun _ _ => F.FAB_CNT_PPS_MISMATCH)]⟩,
    ⟨.CRS_COURSE, 0x2900000, 0x1, 1, 0x1, 1, true, [(.ro, fun _ _ => F.CRS_COURSE_COURSE)]⟩,
    ⟨.CRS_LEN, 0x2900008, 0x1, 1, 0x1, 1, false, [(.ro, fun _ _ => F.CRS_LEN_LEN), (.ro, fun _ _ => F.CRS_LEN_BASE_LEN)]⟩,
    ⟨.CRS_IDLE_LEN, 0x290000c, 0x1, 1, 0x1, 1, false, [(.rw, fun _ _ => F.CRS_IDLE_LEN_IDLE_LEN)]⟩,
    ⟨.CRS_ANCHOR_COURSE, 0x2900010, 0x1, 1, 0x1, 1, true, [(.ro, fun _ _ => F.CRS_ANCHOR_COURSE)]⟩,
    ⟨.CRS_ANCHOR_TIME, 0x2900018, 0x1, 1, 0x1, 1, true, [(.ro, fun _ _ => F.CRS_ANCHOR_TIME)]⟩,
    ⟨.CRS_JOB, 0x2900020, 0x1, 1, 0x1, 1, false, [(.ro, fun _ _ => F.CRS_JOB_JOB_ID), (.ro, fun _ _ => F.CRS_JOB_MODULE), (.ro, fun _ _ => F.CRS_JOB_JOINED), (.ro, fun _ _ => F.CRS_JOB_ROLE), (.ro, fun _ _ => F.CRS_JOB_SUSPENDED), (.ro, fun _ _ => F.CRS_JOB_FAILED)]⟩,
    ⟨.CRS_PACE, 0x2900028, 0x1, 1, 0x1, 1, false, [(.ro, fun _ _ => F.CRS_PACE_PENDING), (.ro, fun _ _ => F.CRS_PACE_LIMITED), (.ro, fun _ _ => F.CRS_PACE_NEW_LEN)]⟩,
    ⟨.CRS_PACE_EFFECTIVE, 0x2900030, 0x1, 1, 0x1, 1, true, [(.ro, fun _ _ => F.CRS_PACE_EFFECTIVE)]⟩,
    ⟨.CRS_SLACK, 0x2900038, 0x1, 1, 0x1, 1, false, [(.ro, fun _ _ => F.CRS_SLACK_SLACK_NS)]⟩,
    ⟨.CRS_GUARD, 0x290003c, 0x1, 1, 0x1, 1, false, [(.ro, fun _ _ => F.CRS_GUARD_GUARD_NS), (.ro, fun _ _ => F.CRS_GUARD_PACE_REQUEST), (.ro, fun _ _ => F.CRS_GUARD_REQ_LEN)]⟩,
    ⟨.CRS_PLAN, 0x2900040, 0x1, 1, 0x1, 1, false, [(.ro, fun _ _ => F.CRS_PLAN_ACTIVE_ID), (.ro, fun _ _ => F.CRS_PLAN_STAGED_ID)]⟩,
    ⟨.CRS_PLAN_STATUS, 0x2900044, 0x1, 1, 0x1, 1, false, [(.ro, fun _ _ => F.CRS_PLAN_STATUS_LOAD_STATUS), (.ro, fun _ _ => F.CRS_PLAN_STATUS_STAGED_FIRST), (.ro, fun _ _ => F.CRS_PLAN_STATUS_POSITION)]⟩,
    ⟨.CRS_PLAN_SWAP, 0x2900048, 0x1, 1, 0x1, 1, true, [(.ro, fun _ _ => F.CRS_PLAN_SWAP)]⟩,
    ⟨.CRS_CKPT_DONE, 0x2900050, 0x1, 1, 0x1, 1, true, [(.ro, fun _ _ => F.CRS_CKPT_DONE)]⟩,
    ⟨.CRS_CKPT_COMMITTED, 0x2900058, 0x1, 1, 0x1, 1, true, [(.ro, fun _ _ => F.CRS_CKPT_COMMITTED)]⟩,
    ⟨.CRS_NOTICE, 0x2900060, 0x1, 1, 0x1, 1, true, [(.ro, fun _ _ => F.CRS_NOTICE_TYPE), (.ro, fun _ _ => F.CRS_NOTICE_COUNT), (.ro, fun _ _ => F.CRS_NOTICE_MODULE), (.ro, fun _ _ => F.CRS_NOTICE_COURSE_LOW)]⟩,
    ⟨.CRS_CNT_COURSES, 0x2900080, 0x1, 1, 0x1, 1, true, [(.ro, fun _ _ => F.CRS_CNT_COURSES)]⟩,
    ⟨.CRS_CNT_SLOTS_SENT, 0x2900088, 0x1, 1, 0x1, 1, true, [(.ro, fun _ _ => F.CRS_CNT_SLOTS_SENT)]⟩,
    ⟨.CRS_CNT_SLOTS_RECEIVED, 0x2900090, 0x1, 1, 0x1, 1, true, [(.ro, fun _ _ => F.CRS_CNT_SLOTS_RECEIVED)]⟩,
    ⟨.CRS_CNT_SLOT_TRANSIENT, 0x2900098, 0x1, 1, 0x1, 1, true, [(.ro, fun _ _ => F.CRS_CNT_SLOT_TRANSIENT)]⟩,
    ⟨.CRS_CNT_SLOT_LASTING, 0x29000a0, 0x1, 1, 0x1, 1, true, [(.ro, fun _ _ => F.CRS_CNT_SLOT_LASTING)]⟩,
    ⟨.CRS_CNT_SLOT_LATE, 0x29000a8, 0x1, 1, 0x1, 1, true, [(.ro, fun _ _ => F.CRS_CNT_SLOT_LATE)]⟩,
    ⟨.CRS_CNT_REPAIR_FULL, 0x29000b0, 0x1, 1, 0x1, 1, true, [(.ro, fun _ _ => F.CRS_CNT_REPAIR_FULL)]⟩,
    ⟨.CRS_CNT_ACK_LATE, 0x29000b8, 0x1, 1, 0x1, 1, true, [(.ro, fun _ _ => F.CRS_CNT_ACK_LATE)]⟩,
    ⟨.CRS_CNT_RECV_DUPLICATE, 0x29000c0, 0x1, 1, 0x1, 1, true, [(.ro, fun _ _ => F.CRS_CNT_RECV_DUPLICATE)]⟩,
    ⟨.CRS_CNT_OVERRUNS, 0x29000c8, 0x1, 1, 0x1, 1, true, [(.ro, fun _ _ => F.CRS_CNT_OVERRUNS)]⟩,
    ⟨.CRS_CNT_PACE_REQUESTS, 0x29000d0, 0x1, 1, 0x1, 1, true, [(.ro, fun _ _ => F.CRS_CNT_PACE_REQUESTS)]⟩,
    ⟨.CRS_CNT_PACE_CHANGES, 0x29000d8, 0x1, 1, 0x1, 1, true, [(.ro, fun _ _ => F.CRS_CNT_PACE_CHANGES)]⟩,
    ⟨.CRS_CNT_STATUS_MISSED, 0x29000e0, 0x1, 1, 0x1, 1, true, [(.ro, fun _ _ => F.CRS_CNT_STATUS_MISSED)]⟩,
    ⟨.CRS_CNT_KEYSTONE_MISSED, 0x29000e8, 0x1, 1, 0x1, 1, true, [(.ro, fun _ _ => F.CRS_CNT_KEYSTONE_MISSED)]⟩,
    ⟨.CRS_CNT_SUSPENSIONS, 0x29000f0, 0x1, 1, 0x1, 1, true, [(.ro, fun _ _ => F.CRS_CNT_SUSPENSIONS)]⟩,
    ⟨.CRS_CNT_FAULTS_SUSPENDED, 0x29000f8, 0x1, 1, 0x1, 1, true, [(.ro, fun _ _ => F.CRS_CNT_FAULTS_SUSPENDED)]⟩,
    ⟨.SEQ_MODE, 0x3000000, 0x1000, 256, 0x1, 1, false, [(.ro, fun a _ => F.SEQ_MODE_L0_ONLY a), (.ro, fun a _ => F.SEQ_MODE_PENDING a), (.ro, fun a _ => F.SEQ_MODE_BUSY a)]⟩,
    ⟨.SEQ_OP, 0x3000008, 0x1000, 256, 0x1, 1, true, [(.ro, fun a _ => F.SEQ_OP_OPREC a)]⟩,
    ⟨.SEQ_TILE, 0x3000010, 0x1000, 256, 0x1, 1, true, [(.ro, fun a _ => F.SEQ_TILE_TILE a), (.ro, fun a _ => F.SEQ_TILE_L1_INDEX a), (.ro, fun a _ => F.SEQ_TILE_L0_INDEX a)]⟩,
    ⟨.SEQ_ORDER, 0x3000018, 0x1000, 256, 0x1, 1, false, [(.ro, fun a _ => F.SEQ_ORDER_ORDER0 a), (.ro, fun a _ => F.SEQ_ORDER_ORDER1 a), (.ro, fun a _ => F.SEQ_ORDER_ORDER2 a), (.ro, fun a _ => F.SEQ_ORDER_ORDER3 a)]⟩,
    ⟨.SEQ_EXT, 0x3000020, 0x1000, 256, 0x8, 4, true, [(.ro, fun a b => F.SEQ_EXT_TM a b), (.ro, fun a b => F.SEQ_EXT_TN a b), (.ro, fun a b => F.SEQ_EXT_TK a b)]⟩,
    ⟨.SEQ_L0_CMD, 0x3000040, 0x1000, 256, 0x1, 1, false, [(.ro, fun a _ => F.SEQ_L0_CMD_CMD_OFF a)]⟩ ]

/-- Register map, part 5. -/
def regTable5 : List RegDecl :=
  [ ⟨.SEQ_L0_STATUS, 0x3000044, 0x1000, 256, 0x1, 1, false, [(.ro, fun a _ => F.SEQ_L0_STATUS_DONE a), (.ro, fun a _ => F.SEQ_L0_STATUS_FAULT a), (.ro, fun a _ => F.SEQ_L0_STATUS_CAUSE a), (.ro, fun a _ => F.SEQ_L0_STATUS_COMMANDS a)]⟩,
    ⟨.SEQ_CNT_TILES, 0x3000080, 0x1000, 256, 0x1, 1, true, [(.ro, fun a _ => F.SEQ_CNT_TILES a)]⟩,
    ⟨.SEQ_CNT_BLOCKS, 0x3000088, 0x1000, 256, 0x1, 1, true, [(.ro, fun a _ => F.SEQ_CNT_BLOCKS a)]⟩,
    ⟨.SEQ_CNT_LOADS, 0x3000090, 0x1000, 256, 0x1, 1, true, [(.ro, fun a _ => F.SEQ_CNT_LOADS a)]⟩,
    ⟨.SEQ_CNT_PAD_VECTORS, 0x3000098, 0x1000, 256, 0x1, 1, true, [(.ro, fun a _ => F.SEQ_CNT_PAD_VECTORS a)]⟩,
    ⟨.SEQ_CNT_HALO_LOCAL, 0x30000a0, 0x1000, 256, 0x1, 1, true, [(.ro, fun a _ => F.SEQ_CNT_HALO_LOCAL a)]⟩,
    ⟨.SEQ_CNT_HALO_HIT, 0x30000a8, 0x1000, 256, 0x1, 1, true, [(.ro, fun a _ => F.SEQ_CNT_HALO_HIT a)]⟩,
    ⟨.SEQ_CNT_HALO_MISS, 0x30000b0, 0x1000, 256, 0x1, 1, true, [(.ro, fun a _ => F.SEQ_CNT_HALO_MISS a)]⟩,
    ⟨.SEQ_CNT_HALO_DEPOSIT, 0x30000b8, 0x1000, 256, 0x1, 1, true, [(.ro, fun a _ => F.SEQ_CNT_HALO_DEPOSIT a)]⟩,
    ⟨.CIM_STATE, 0x4000000, 0x4000, 256, 0x80, 68, false, [(.rw, fun a b => F.CIM_STATE_EN a b), (.ro, fun a b => F.CIM_STATE_STATE a b), (.ro, fun a b => F.CIM_STATE_ENABLE_PENDING a b), (.ro, fun a b => F.CIM_STATE_HELD a b), (.w1c, fun a b => F.CIM_STATE_START_FAULT a b), (.ro, fun a b => F.CIM_STATE_HOLD_CAUSE a b), (.ro, fun a b => F.CIM_STATE_STARTS a b)]⟩,
    ⟨.CIM_MAP, 0x4000004, 0x4000, 256, 0x80, 68, false, [(.ro, fun a b => F.CIM_MAP_PHYSICAL a b), (.ro, fun a b => F.CIM_MAP_STREAM_CAP a b), (.ro, fun a b => F.CIM_MAP_LOGICAL a b), (.ro, fun a b => F.CIM_MAP_ASSIGNED a b), (.ro, fun a b => F.CIM_MAP_BORROWED a b)]⟩,
    ⟨.CIM_MODE, 0x4000008, 0x4000, 256, 0x80, 68, false, [(.rw, fun a b => F.CIM_MODE_WIDE a b), (.ro, fun a b => F.CIM_MODE_WIDE_EFFECTIVE a b), (.ro, fun a b => F.CIM_MODE_TAP_LAST a b), (.ro, fun a b => F.CIM_MODE_STAGGER a b)]⟩,
    ⟨.CIM_BANK, 0x400000c, 0x4000, 256, 0x80, 68, false, [(.ro, fun a b => F.CIM_BANK_ACTIVE a b), (.ro, fun a b => F.CIM_BANK_VALID_A a b), (.ro, fun a b => F.CIM_BANK_VALID_B a b), (.ro, fun a b => F.CIM_BANK_WRITING a b), (.ro, fun a b => F.CIM_BANK_WRITE_BANK a b), (.ro, fun a b => F.CIM_BANK_SWAP_WAIT a b), (.ro, fun a b => F.CIM_BANK_SWAP_TO a b), (.ro, fun a b => F.CIM_BANK_SLOT_A a b), (.ro, fun a b => F.CIM_BANK_SLOT_B a b)]⟩,
    ⟨.CIM_WSID, 0x4000010, 0x4000, 256, 0x80, 68, false, [(.ro, fun a b => F.CIM_WSID_WSID_A a b), (.ro, fun a b => F.CIM_WSID_WSID_B a b)]⟩,
    ⟨.CIM_WRITE_RESULT, 0x4000014, 0x4000, 256, 0x80, 68, false, [(.ro, fun a b => F.CIM_WRITE_RESULT_FIRST_FAIL_ROW a b), (.ro, fun a b => F.CIM_WRITE_RESULT_FAILED a b), (.ro, fun a b => F.CIM_WRITE_RESULT_SINGLE_PASS a b), (.ro, fun a b => F.CIM_WRITE_RESULT_FAILED_ROWS a b), (.ro, fun a b => F.CIM_WRITE_RESULT_MAX_ATTEMPT a b)]⟩,
    ⟨.CIM_BANK_A_STATE, 0x4000018, 0x4000, 256, 0x80, 68, false, [(.rw, fun a b => F.CIM_BANK_A_STATE_EN a b), (.ro, fun a b => F.CIM_BANK_A_STATE_STATE a b), (.ro, fun a b => F.CIM_BANK_A_STATE_ENABLE_PENDING a b), (.ro, fun a b => F.CIM_BANK_A_STATE_HELD a b), (.w1c, fun a b => F.CIM_BANK_A_STATE_START_FAULT a b), (.ro, fun a b => F.CIM_BANK_A_STATE_HOLD_CAUSE a b), (.ro, fun a b => F.CIM_BANK_A_STATE_STARTS a b)]⟩,
    ⟨.CIM_BANK_B_STATE, 0x400001c, 0x4000, 256, 0x80, 68, false, [(.rw, fun a b => F.CIM_BANK_B_STATE_EN a b), (.ro, fun a b => F.CIM_BANK_B_STATE_STATE a b), (.ro, fun a b => F.CIM_BANK_B_STATE_ENABLE_PENDING a b), (.ro, fun a b => F.CIM_BANK_B_STATE_HELD a b), (.w1c, fun a b => F.CIM_BANK_B_STATE_START_FAULT a b), (.ro, fun a b => F.CIM_BANK_B_STATE_HOLD_CAUSE a b), (.ro, fun a b => F.CIM_BANK_B_STATE_STARTS a b)]⟩,
    ⟨.CIM_CNT_PLANES, 0x4000020, 0x4000, 256, 0x80, 68, true, [(.ro, fun a b => F.CIM_CNT_PLANES a b)]⟩,
    ⟨.CIM_CNT_SKIPPED, 0x4000028, 0x4000, 256, 0x80, 68, true, [(.ro, fun a b => F.CIM_CNT_SKIPPED a b)]⟩,
    ⟨.CIM_CNT_SPLITS, 0x4000030, 0x4000, 256, 0x80, 68, true, [(.ro, fun a b => F.CIM_CNT_SPLITS a b)]⟩,
    ⟨.CIM_CNT_RETRY, 0x4000038, 0x4000, 256, 0x80, 68, true, [(.ro, fun a b => F.CIM_CNT_RETRY a b)]⟩,
    ⟨.CIM_CNT_MARGINAL, 0x4000040, 0x4000, 256, 0x80, 68, true, [(.ro, fun a b => F.CIM_CNT_MARGINAL a b)]⟩,
    ⟨.CIM_CNT_LATE_SWAP, 0x4000048, 0x4000, 256, 0x80, 68, true, [(.ro, fun a b => F.CIM_CNT_LATE_SWAP a b)]⟩,
    ⟨.CIM_CNT_FULLSCALE, 0x4000050, 0x4000, 256, 0x80, 68, true, [(.ro, fun a b => F.CIM_CNT_FULLSCALE a b)]⟩,
    ⟨.CIM_PV_TIME, 0x4400000, 0x1, 1, 0x1, 1, false, [(.ro, fun _ _ => F.CIM_PV_TIME_WRITE_NS), (.ro, fun _ _ => F.CIM_PV_TIME_SETTLE_NS), (.ro, fun _ _ => F.CIM_PV_TIME_READ_NS)]⟩,
    ⟨.CIM_PV_MARGIN, 0x4400004, 0x1, 1, 0x1, 1, false, [(.ro, fun _ _ => F.CIM_PV_MARGIN_MARGIN_MV), (.ro, fun _ _ => F.CIM_PV_MARGIN_MAX_ATTEMPTS)]⟩,
    ⟨.CIM_CORE_BANKMAP, 0x4003000, 0x4000, 256, 0x1, 1, true, [(.ro, fun a _ => F.CIM_CORE_BANKMAP_ACTIVE a)]⟩,
    ⟨.CIM_CORE_VALIDMAP, 0x4003008, 0x4000, 256, 0x1, 1, true, [(.ro, fun a _ => F.CIM_CORE_VALIDMAP_ACTIVE_VALID a)]⟩,
    ⟨.DECK_HOME, 0x4800000, 0x1, 1, 0x1, 1, true, [(.ro, fun _ _ => F.DECK_HOME_BASE), (.ro, fun _ _ => F.DECK_HOME_SIZE_MIB)]⟩,
    ⟨.DECK_POLICY, 0x4800008, 0x1, 1, 0x1, 1, false, [(.rw, fun _ _ => F.DECK_POLICY_STEAL_EN), (.rw, fun _ _ => F.DECK_POLICY_DRAW_AHEAD), (.rw, fun _ _ => F.DECK_POLICY_STALL_MS)]⟩,
    ⟨.DECK_HOME_CNT_ATOMICS, 0x4800010, 0x1, 1, 0x1, 1, true, [(.ro, fun _ _ => F.DECK_HOME_CNT_ATOMICS)]⟩,
    ⟨.DECK_HOME_CNT_CONFLICT, 0x4800018, 0x1, 1, 0x1, 1, true, [(.ro, fun _ _ => F.DECK_HOME_CNT_CONFLICT)]⟩,
    ⟨.DECK_HAND, 0x4810000, 0x100, 256, 0x1, 1, true, [(.ro, fun a _ => F.DECK_HAND_FIRST a), (.ro, fun a _ => F.DECK_HAND_COUNT a), (.ro, fun a _ => F.DECK_HAND_POS a), (.ro, fun a _ => F.DECK_HAND_LEAD a), (.ro, fun a _ => F.DECK_HAND_STOLEN a), (.ro, fun a _ => F.DECK_HAND_EMPTY a)]⟩,
    ⟨.DECK_GEN, 0x4810008, 0x100, 256, 0x1, 1, false, [(.ro, fun a _ => F.DECK_GEN_GEN a)]⟩,
    ⟨.DECK_CNT_DRAWS, 0x4810010, 0x100, 256, 0x1, 1, true, [(.ro, fun a _ => F.DECK_CNT_DRAWS a)]⟩,
    ⟨.DECK_CNT_EMPTY, 0x4810018, 0x100, 256, 0x1, 1, true, [(.ro, fun a _ => F.DECK_CNT_EMPTY a)]⟩,
    ⟨.DECK_CNT_STEALS, 0x4810020, 0x100, 256, 0x1, 1, true, [(.ro, fun a _ => F.DECK_CNT_STEALS a)]⟩,
    ⟨.DECK_CNT_LOST, 0x4810028, 0x100, 256, 0x1, 1, true, [(.ro, fun a _ => F.DECK_CNT_LOST a)]⟩,
    ⟨.DECK_CNT_RETURNS, 0x4810030, 0x100, 256, 0x1, 1, true, [(.ro, fun a _ => F.DECK_CNT_RETURNS a)]⟩,
    ⟨.DECK_CNT_WAIT, 0x4810038, 0x100, 256, 0x1, 1, true, [(.ro, fun a _ => F.DECK_CNT_WAIT a)]⟩ ]

/-- Register map, part 6. -/
def regTable6 : List RegDecl :=
  [ ⟨.POOL_SP_STATUS, 0x5000000, 0x400, 256, 0x1, 1, false, [(.ro, fun a _ => F.POOL_SP_STATUS_CLEARING a), (.ro, fun a _ => F.POOL_SP_STATUS_MIRROR a), (.ro, fun a _ => F.POOL_SP_STATUS_REDIRECT a), (.ro, fun a _ => F.POOL_SP_STATUS_BANK_SERVED a)]⟩,
    ⟨.POOL_SP_COLREP, 0x5000040, 0x400, 256, 0x4, 16, false, [(.ro, fun a b => F.POOL_SP_COLREP_COL0 a b), (.ro, fun a b => F.POOL_SP_COLREP_VALID0 a b), (.ro, fun a b => F.POOL_SP_COLREP_FUSED0 a b), (.ro, fun a b => F.POOL_SP_COLREP_COL1 a b), (.ro, fun a b => F.POOL_SP_COLREP_VALID1 a b), (.ro, fun a b => F.POOL_SP_COLREP_FUSED1 a b)]⟩,
    ⟨.POOL_SP_ERR, 0x5000080, 0x400, 256, 0x1, 1, true, [(.ro, fun a _ => F.POOL_SP_ERR_OFFSET a), (.ro, fun a _ => F.POOL_SP_ERR_CLASS a), (.ro, fun a _ => F.POOL_SP_ERR_COLUMN a), (.ro, fun a _ => F.POOL_SP_ERR_MASTER a), (.w1c, fun a _ => F.POOL_SP_ERR_VALID a)]⟩,
    ⟨.POOL_SP_CNT_CONFLICT, 0x5000100, 0x400, 256, 0x8, 8, true, [(.ro, fun a b => F.POOL_SP_CNT_CONFLICT a b)]⟩,
    ⟨.POOL_SP_CNT_CORRECTED, 0x5000140, 0x400, 256, 0x1, 1, true, [(.ro, fun a _ => F.POOL_SP_CNT_CORRECTED a)]⟩,
    ⟨.POOL_SP_CNT_TRANSIENT, 0x5000148, 0x400, 256, 0x1, 1, true, [(.ro, fun a _ => F.POOL_SP_CNT_TRANSIENT a)]⟩,
    ⟨.POOL_SP_CNT_LASTING, 0x5000150, 0x400, 256, 0x1, 1, true, [(.ro, fun a _ => F.POOL_SP_CNT_LASTING a)]⟩,
    ⟨.POOL_SP_CNT_RMW, 0x5000158, 0x400, 256, 0x1, 1, true, [(.ro, fun a _ => F.POOL_SP_CNT_RMW a)]⟩,
    ⟨.POOL_SP_CNT_DENIED, 0x5000160, 0x400, 256, 0x1, 1, true, [(.ro, fun a _ => F.POOL_SP_CNT_DENIED a)]⟩,
    ⟨.POOL_DP_STATUS, 0x5080000, 0x4000, 4, 0x1, 1, false, [(.ro, fun a _ => F.POOL_DP_STATUS_CLEARING a), (.ro, fun a _ => F.POOL_DP_STATUS_WIPING a), (.ro, fun a _ => F.POOL_DP_STATUS_VAULT_FAULT a), (.ro, fun a _ => F.POOL_DP_STATUS_MIRROR a), (.ro, fun a _ => F.POOL_DP_STATUS_REDIRECT a)]⟩,
    ⟨.POOL_DP_SPARE, 0x5080010, 0x4000, 4, 0x4, 4, false, [(.ro, fun a b => F.POOL_DP_SPARE_BANK_SERVED a b), (.ro, fun a b => F.POOL_DP_SPARE_ASSIGNED a b), (.ro, fun a b => F.POOL_DP_SPARE_BORROWED a b), (.ro, fun a b => F.POOL_DP_SPARE_FUSED a b)]⟩,
    ⟨.POOL_DP_ERR, 0x5080040, 0x4000, 4, 0x1, 1, true, [(.ro, fun a _ => F.POOL_DP_ERR_OFFSET a), (.ro, fun a _ => F.POOL_DP_ERR_CLASS a), (.ro, fun a _ => F.POOL_DP_ERR_COLUMN a), (.ro, fun a _ => F.POOL_DP_ERR_MASTER a), (.w1c, fun a _ => F.POOL_DP_ERR_VALID a)]⟩,
    ⟨.POOL_DP_SCRUB, 0x5080048, 0x4000, 4, 0x1, 1, false, [(.rw, fun a _ => F.POOL_DP_SCRUB_EN a), (.rw, fun a _ => F.POOL_DP_SCRUB_INTERVAL_MS a)]⟩,
    ⟨.POOL_DP_COLREP, 0x5080800, 0x4000, 4, 0x8, 192, true, [(.ro, fun a b => F.POOL_DP_COLREP_COL0 a b), (.ro, fun a b => F.POOL_DP_COLREP_VALID0 a b), (.ro, fun a b => F.POOL_DP_COLREP_FUSED0 a b), (.ro, fun a b => F.POOL_DP_COLREP_COL1 a b), (.ro, fun a b => F.POOL_DP_COLREP_VALID1 a b), (.ro, fun a b => F.POOL_DP_COLREP_FUSED1 a b), (.ro, fun a b => F.POOL_DP_COLREP_COL2 a b), (.ro, fun a b => F.POOL_DP_COLREP_VALID2 a b), (.ro, fun a b => F.POOL_DP_COLREP_FUSED2 a b), (.ro, fun a b => F.POOL_DP_COLREP_COL3 a b), (.ro, fun a b => F.POOL_DP_COLREP_VALID3 a b), (.ro, fun a b => F.POOL_DP_COLREP_FUSED3 a b)]⟩,
    ⟨.POOL_DP_CNT_CONFLICT, 0x5081000, 0x4000, 4, 0x8, 69, true, [(.ro, fun a b => F.POOL_DP_CNT_CONFLICT a b)]⟩,
    ⟨.POOL_DP_CNT_CORRECTED, 0x5081400, 0x4000, 4, 0x1, 1, true, [(.ro, fun a _ => F.POOL_DP_CNT_CORRECTED a)]⟩,
    ⟨.POOL_DP_CNT_TRANSIENT, 0x5081408, 0x4000, 4, 0x1, 1, true, [(.ro, fun a _ => F.POOL_DP_CNT_TRANSIENT a)]⟩,
    ⟨.POOL_DP_CNT_LASTING, 0x5081410, 0x4000, 4, 0x1, 1, true, [(.ro, fun a _ => F.POOL_DP_CNT_LASTING a)]⟩,
    ⟨.POOL_DP_CNT_RMW, 0x5081418, 0x4000, 4, 0x1, 1, true, [(.ro, fun a _ => F.POOL_DP_CNT_RMW a)]⟩,
    ⟨.POOL_DP_CNT_ATOMICS, 0x5081420, 0x4000, 4, 0x1, 1, true, [(.ro, fun a _ => F.POOL_DP_CNT_ATOMICS a)]⟩,
    ⟨.POOL_DP_CNT_DENIED, 0x5081428, 0x4000, 4, 0x1, 1, true, [(.ro, fun a _ => F.POOL_DP_CNT_DENIED a)]⟩,
    ⟨.POOL_DP_CNT_SCRUBBED, 0x5081430, 0x4000, 4, 0x1, 1, true, [(.ro, fun a _ => F.POOL_DP_CNT_SCRUBBED a)]⟩,
    ⟨.POOL_VAULT_STATUS, 0x5100000, 0x1, 1, 0x1, 1, false, [(.ro, fun _ _ => F.POOL_VAULT_STATUS_WIPING), (.ro, fun _ _ => F.POOL_VAULT_STATUS_FAULT), (.ro, fun _ _ => F.POOL_VAULT_STATUS_LAST_CAUSE), (.ro, fun _ _ => F.POOL_VAULT_STATUS_WIPES)]⟩,
    ⟨.POOL_VAULT_WIPE, 0x5100004, 0x1, 1, 0x1, 1, false, [(.wo, fun _ _ => F.POOL_VAULT_WIPE_WIPE)]⟩,
    ⟨.MEM_STACK_STATE, 0x6000000, 0x1000, 24, 0x1, 1, false, [(.rw, fun a _ => F.MEM_STACK_STATE_EN a), (.ro, fun a _ => F.MEM_STACK_STATE_STATE a), (.ro, fun a _ => F.MEM_STACK_STATE_ENABLE_PENDING a), (.ro, fun a _ => F.MEM_STACK_STATE_HELD a), (.w1c, fun a _ => F.MEM_STACK_STATE_START_FAULT a), (.ro, fun a _ => F.MEM_STACK_STATE_HOLD_CAUSE a), (.ro, fun a _ => F.MEM_STACK_STATE_STARTS a)]⟩,
    ⟨.MEM_STACK_INFO, 0x6000004, 0x1000, 24, 0x1, 1, false, [(.ro, fun a _ => F.MEM_STACK_INFO_STACK a), (.ro, fun a _ => F.MEM_STACK_INFO_DIE a), (.ro, fun a _ => F.MEM_STACK_INFO_WALL a), (.ro, fun a _ => F.MEM_STACK_INFO_LOCAL a), (.ro, fun a _ => F.MEM_STACK_INFO_LANES_REPAIRED a), (.ro, fun a _ => F.MEM_STACK_INFO_TRAIN_MS a)]⟩,
    ⟨.MEM_STACK_TEMP, 0x6000008, 0x1000, 24, 0x1, 1, false, [(.ro, fun a _ => F.MEM_STACK_TEMP_TEMP_C a), (.ro, fun a _ => F.MEM_STACK_TEMP_MAX_C a), (.ro, fun a _ => F.MEM_STACK_TEMP_REFRESH_2X a)]⟩,
    ⟨.MEM_STACK_ERR, 0x6000010, 0x1000, 24, 0x1, 1, true, [(.ro, fun a _ => F.MEM_STACK_ERR_UNIT a), (.ro, fun a _ => F.MEM_STACK_ERR_GRANULE a), (.ro, fun a _ => F.MEM_STACK_ERR_CLASS a), (.ro, fun a _ => F.MEM_STACK_ERR_BIT a), (.ro, fun a _ => F.MEM_STACK_ERR_SOURCE a), (.w1c, fun a _ => F.MEM_STACK_ERR_VALID a)]⟩,
    ⟨.MEM_STACK_CNT_CORRECTED, 0x6000040, 0x1000, 24, 0x1, 1, true, [(.ro, fun a _ => F.MEM_STACK_CNT_CORRECTED a)]⟩,
    ⟨.MEM_STACK_CNT_TRANSIENT, 0x6000048, 0x1000, 24, 0x1, 1, true, [(.ro, fun a _ => F.MEM_STACK_CNT_TRANSIENT a)]⟩,
    ⟨.MEM_STACK_CNT_LASTING, 0x6000050, 0x1000, 24, 0x1, 1, true, [(.ro, fun a _ => F.MEM_STACK_CNT_LASTING a)]⟩,
    ⟨.MEM_STACK_CNT_RECONSTRUCTED, 0x6000058, 0x1000, 24, 0x1, 1, true, [(.ro, fun a _ => F.MEM_STACK_CNT_RECONSTRUCTED a)]⟩,
    ⟨.MEM_STACK_CNT_LINK_RETRY, 0x6000060, 0x1000, 24, 0x1, 1, true, [(.ro, fun a _ => F.MEM_STACK_CNT_LINK_RETRY a)]⟩,
    ⟨.MEM_STACK_CNT_ONDIE, 0x6000068, 0x1000, 24, 0x1, 1, true, [(.ro, fun a _ => F.MEM_STACK_CNT_ONDIE a)]⟩,
    ⟨.MEM_STACK_CNT_SCRUBBED, 0x6000070, 0x1000, 24, 0x1, 1, true, [(.ro, fun a _ => F.MEM_STACK_CNT_SCRUBBED a)]⟩,
    ⟨.MEM_STACK_CNT_READ_UNITS, 0x6000078, 0x1000, 24, 0x1, 1, true, [(.ro, fun a _ => F.MEM_STACK_CNT_READ_UNITS a)]⟩,
    ⟨.MEM_STACK_CNT_WRITE_UNITS, 0x6000080, 0x1000, 24, 0x1, 1, true, [(.ro, fun a _ => F.MEM_STACK_CNT_WRITE_UNITS a)]⟩,
    ⟨.MEM_STACK_CNT_DENIED, 0x6000088, 0x1000, 24, 0x1, 1, true, [(.ro, fun a _ => F.MEM_STACK_CNT_DENIED a)]⟩,
    ⟨.MEM_WALL_CFG, 0x6020000, 0x400, 2, 0x1, 1, false, [(.rwl, fun a _ => F.MEM_WALL_CFG_PARITY a), (.ro, fun a _ => F.MEM_WALL_CFG_PARITY_EFF a), (.rw, fun a _ => F.MEM_WALL_CFG_REBUILD_GBPS a)]⟩,
    ⟨.MEM_WALL_STATUS, 0x6020004, 0x400, 2, 0x1, 1, false, [(.ro, fun a _ => F.MEM_WALL_STATUS_STATE a), (.ro, fun a _ => F.MEM_WALL_STATUS_MISSING a), (.ro, fun a _ => F.MEM_WALL_STATUS_SECOND a)]⟩ ]

/-- Register map, part 7. -/
def regTable7 : List RegDecl :=
  [ ⟨.MEM_WALL_MAP, 0x6020008, 0x400, 2, 0x1, 1, true, [(.ro, fun a _ => F.MEM_WALL_MAP_BASE a), (.ro, fun a _ => F.MEM_WALL_MAP_SIZE_GIB a)]⟩,
    ⟨.MEM_WALL_REBUILD, 0x6020010, 0x400, 2, 0x1, 1, true, [(.ro, fun a _ => F.MEM_WALL_REBUILD_STRIPE a)]⟩,
    ⟨.MEM_WALL_CNT_FULL_STRIPE, 0x6020040, 0x400, 2, 0x1, 1, true, [(.ro, fun a _ => F.MEM_WALL_CNT_FULL_STRIPE a)]⟩,
    ⟨.MEM_WALL_CNT_PARTIAL, 0x6020048, 0x400, 2, 0x1, 1, true, [(.ro, fun a _ => F.MEM_WALL_CNT_PARTIAL a)]⟩,
    ⟨.MEM_WALL_CNT_ASM_TIMEOUT, 0x6020050, 0x400, 2, 0x1, 1, true, [(.ro, fun a _ => F.MEM_WALL_CNT_ASM_TIMEOUT a)]⟩,
    ⟨.MEM_WALL_CNT_ASM_EVICT, 0x6020058, 0x400, 2, 0x1, 1, true, [(.ro, fun a _ => F.MEM_WALL_CNT_ASM_EVICT a)]⟩,
    ⟨.MEM_WALL_CNT_LOCK_WAIT, 0x6020060, 0x400, 2, 0x1, 1, true, [(.ro, fun a _ => F.MEM_WALL_CNT_LOCK_WAIT a)]⟩,
    ⟨.MEM_WALL_CNT_RECON_READS, 0x6020068, 0x400, 2, 0x1, 1, true, [(.ro, fun a _ => F.MEM_WALL_CNT_RECON_READS a)]⟩,
    ⟨.MEM_WALL_CNT_REBUILT, 0x6020070, 0x400, 2, 0x1, 1, true, [(.ro, fun a _ => F.MEM_WALL_CNT_REBUILT a)]⟩,
    ⟨.MEM_WALL_CNT_UNCORRECTABLE, 0x6020078, 0x400, 2, 0x1, 1, true, [(.ro, fun a _ => F.MEM_WALL_CNT_UNCORRECTABLE a)]⟩,
    ⟨.MEM_CLEAR, 0x6030000, 0x1, 1, 0x1, 1, false, [(.rwl, fun _ _ => F.MEM_CLEAR_BOOT_CLEAR), (.ro, fun _ _ => F.MEM_CLEAR_CLEARED), (.ro, fun _ _ => F.MEM_CLEAR_CLEARING)]⟩,
    ⟨.MEM_ASM_CFG, 0x6030004, 0x1, 1, 0x1, 1, false, [(.rw, fun _ _ => F.MEM_ASM_CFG_TIMEOUT_NS)]⟩,
    ⟨.MEM_SCRUB, 0x6030008, 0x1, 1, 0x1, 1, false, [(.rw, fun _ _ => F.MEM_SCRUB_EN), (.rw, fun _ _ => F.MEM_SCRUB_INTERVAL_H)]⟩ ]

/-- The register map of BAR0 (R12, R294). -/
def regTable : List RegDecl :=
  regTable0 ++ regTable1 ++ regTable2 ++ regTable3 ++ regTable4 ++ regTable5 ++ regTable6 ++ regTable7

/-- The counters: the registers that follow R28. -/
def counterRegs : List Reg :=
  [ .HOST_CNT_ACCESS_ERR, .HOST_CNT_DOORBELLS, .HOST_CNT_DB_COALESCED, .HOST_CNT_SHADOW_READS, .HOST_CNT_DESC_FETCHED, .HOST_CNT_DESC_COMPLETED,
    .HOST_CNT_ADMISSIONS, .HOST_CNT_EVICTIONS, .HOST_CNT_BUSY, .HOST_CNT_DMA_TRANSIENT, .HOST_CNT_DMA_LASTING, .HOST_CNT_BAR4_DENIED,
    .HOST_CNT_MSIX, .FW_LOG_CNT_DROPPED, .FW_PROC_CNT_RESTARTS, .FW_PROC_CNT_WDT, .LCS_CNT_TAMPER, .FUSE_CNT_BURNS,
    .PWR_CNT_OVER_WINDOWS, .PWR_MODULE_ENERGY, .PWR_PART_ENERGY, .PWR_DIE_CNT_DROOP, .PWR_DIE_CNT_STRETCH, .PWR_DIE_CNT_OP_CHANGES,
    .PWR_DIE_CNT_DUTY_LOST, .PWR_DIE_CNT_PARKED, .PWR_CTX_ENERGY, .THM_CNT_THROTTLE, .THM_CNT_HOLD, .HLT_CNT_SLICES,
    .HLT_CNT_SLICE_ABANDONED, .HLT_CNT_SLICE_TRANSIENT, .HLT_CNT_SOFT_REPAIRS, .HLT_CNT_ROWS_REBUILT, .HLT_CNT_WEIGHT_LOST, .HLT_CNT_KS_CHECKS,
    .HLT_CNT_KS_SKIPPED, .HLT_CNT_KS_MISMATCH, .HLT_CNT_RANGE_BLOCKS, .HLT_CNT_OUTLIERS, .HLT_CNT_ALARMS, .HLT_CNT_FAIL_DROPPED,
    .CTX_CNT_DESC, .CTX_CNT_DOORBELL, .CORE_CNT_CHUNKS, .CORE_CNT_CHUNK_SAT, .CORE_CNT_SPILLS, .CORE_CNT_RESUMES,
    .CORE_CNT_REPLAYS, .CORE_CNT_CHAIN_WAIT, .CORE_CNT_SCALE_WAIT, .FAB_PORT_CNT_TX_FRAMES, .FAB_PORT_CNT_RX_FRAMES, .FAB_PORT_CNT_TX_BYTES,
    .FAB_PORT_CNT_RX_BYTES, .FAB_PORT_CNT_FCS_ERR, .FAB_PORT_CNT_PCRC_ERR, .FAB_PORT_CNT_OVERSIZE, .FAB_PORT_CNT_DROPPED, .FAB_PORT_CNT_FEC_CORR,
    .FAB_PORT_CNT_FEC_UNCORR, .FAB_PORT_CNT_RETRAIN, .FAB_CNT_SLAVE_MOVES, .FAB_CNT_PPS_MISMATCH, .CRS_CNT_COURSES, .CRS_CNT_SLOTS_SENT,
    .CRS_CNT_SLOTS_RECEIVED, .CRS_CNT_SLOT_TRANSIENT, .CRS_CNT_SLOT_LASTING, .CRS_CNT_SLOT_LATE, .CRS_CNT_REPAIR_FULL, .CRS_CNT_ACK_LATE,
    .CRS_CNT_RECV_DUPLICATE, .CRS_CNT_OVERRUNS, .CRS_CNT_PACE_REQUESTS, .CRS_CNT_PACE_CHANGES, .CRS_CNT_STATUS_MISSED, .CRS_CNT_KEYSTONE_MISSED,
    .CRS_CNT_SUSPENSIONS, .CRS_CNT_FAULTS_SUSPENDED, .SEQ_CNT_TILES, .SEQ_CNT_BLOCKS, .SEQ_CNT_LOADS, .SEQ_CNT_PAD_VECTORS,
    .SEQ_CNT_HALO_LOCAL, .SEQ_CNT_HALO_HIT, .SEQ_CNT_HALO_MISS, .SEQ_CNT_HALO_DEPOSIT, .CIM_CNT_PLANES, .CIM_CNT_SKIPPED,
    .CIM_CNT_SPLITS, .CIM_CNT_RETRY, .CIM_CNT_MARGINAL, .CIM_CNT_LATE_SWAP, .CIM_CNT_FULLSCALE, .DECK_HOME_CNT_ATOMICS,
    .DECK_HOME_CNT_CONFLICT, .DECK_CNT_DRAWS, .DECK_CNT_EMPTY, .DECK_CNT_STEALS, .DECK_CNT_LOST, .DECK_CNT_RETURNS,
    .DECK_CNT_WAIT, .POOL_SP_CNT_CONFLICT, .POOL_SP_CNT_CORRECTED, .POOL_SP_CNT_TRANSIENT, .POOL_SP_CNT_LASTING, .POOL_SP_CNT_RMW,
    .POOL_SP_CNT_DENIED, .POOL_DP_CNT_CONFLICT, .POOL_DP_CNT_CORRECTED, .POOL_DP_CNT_TRANSIENT, .POOL_DP_CNT_LASTING, .POOL_DP_CNT_RMW,
    .POOL_DP_CNT_ATOMICS, .POOL_DP_CNT_DENIED, .POOL_DP_CNT_SCRUBBED, .MEM_STACK_CNT_CORRECTED, .MEM_STACK_CNT_TRANSIENT, .MEM_STACK_CNT_LASTING,
    .MEM_STACK_CNT_RECONSTRUCTED, .MEM_STACK_CNT_LINK_RETRY, .MEM_STACK_CNT_ONDIE, .MEM_STACK_CNT_SCRUBBED, .MEM_STACK_CNT_READ_UNITS, .MEM_STACK_CNT_WRITE_UNITS,
    .MEM_STACK_CNT_DENIED, .MEM_WALL_CNT_FULL_STRIPE, .MEM_WALL_CNT_PARTIAL, .MEM_WALL_CNT_ASM_TIMEOUT, .MEM_WALL_CNT_ASM_EVICT, .MEM_WALL_CNT_LOCK_WAIT,
    .MEM_WALL_CNT_RECON_READS, .MEM_WALL_CNT_REBUILT, .MEM_WALL_CNT_UNCORRECTABLE ]

/-- The two indices of the copy of a register at an offset, if there is one (R12). -/
def RegDecl.indices (r : RegDecl) (off : Nat) : Option (Nat × Nat) :=
  if off < r.base then none
  else
    let i := (off - r.base) / r.stride1
    let j := (off - r.base) % r.stride1 / r.stride2
    if (off - r.base) % r.stride1 % r.stride2 = 0 ∧ i < r.count1 ∧ j < r.count2 then some (i, j) else none

/-- The register at an offset, with its indices. -/
def regAt (off : Nat) : Option (RegDecl × Nat × Nat) := regTable.findSome? fun r => (r.indices off).map fun p => (r, p)

/-- The rows of the counters. -/
def counterTable : List RegDecl := regTable.filter fun r => counterRegs.contains r.reg

end Sys2Proof.Machine
end

