-- ==== Sys2Proof/Machine/Fuse.lean ====
section
/-! DEFINITION. Sys2Proof/Machine/Fuse.lean: register files, the fuse block and the shadow that a fundamental reset latches (R7, R29, R356). -/
namespace Sys2Proof.Machine

open Sys2Proof

/-- The software-visible register fields that have been set since reset: a field is keyed by `64 × offset + lowest bit`, and a field that
is not listed holds its reset value (R5, R7). -/
abbrev RegFile := Table Nat

/-- The key of a field in a register file. -/
def Fld.key (f : Fld) : Nat := 64 * f.off + f.lo

/-- The value of a field: what was set, or its reset value (R5, R7). -/
def RegFile.get (r : RegFile) (f : Fld) : Nat := tget f.rst r f.key

/-- Set a field; a value is kept to the width of the field. -/
def RegFile.put (r : RegFile) (f : Fld) (v : Nat) : RegFile := tset r f.key (v % 2 ^ f.len)

def RegFile.puts (r : RegFile) (l : List (Fld × Nat)) : RegFile := l.foldl (fun r p => r.put p.1 p.2) r

/-- The fuse block (R356). Life-cycle bits as R358 numbers them; hashes and keys as numbers, byte 0 lowest; the SVN as the count of its burned bits. -/
structure Fuses where
  lc : Nat := 0
  hash : List Nat := []
  valid : Nat := 0
  revoked : Nat := 0
  svn : Nat := 0
  scalar : Nat := 0
  key : Nat := 0
  serial : Nat := 0
  ceiling : Nat := 900
  stepping : Nat := 0xB0
  macs : List Nat := []
  holdover : Nat := 0
  margin : Nat := 60
  volts : List Nat := [600, 630, 665, 705, 740, 780, 820, 860]
  parity : Nat := 0
  /-- Repair entries burned, as fuse candidates (R409), and how many are free. -/
  repairs : List Nat := []
  free : Nat := 0
  deriving DecidableEq, Repr

/-- The life-cycle state code: that of the highest burned bit, or 0 for BLANK (R358). -/
def Fuses.lifeCycle (f : Fuses) : Nat := bitLen (f.lc % 32)

/-- The clock of an operating point in MHz (R369). -/
def oppFreq : List Nat := [400, 550, 700, 850, 950, 1100, 1210, 1320]

/-- The lowest voltage of an operating point: 30 mV below its typical one (R369). -/
def oppLow : List Nat := [570, 600, 635, 675, 710, 750, 790, 830]

/-- The fuses of the part that the configuration describes, as it left manufacture: no repair is burned. -/
def Fuses.part : Fuses where
  lc := Config.fuseLifeCycle.toNat
  hash := [(Config.fuseHash 0).toNat, (Config.fuseHash 1).toNat, (Config.fuseHash 2).toNat, (Config.fuseHash 3).toNat]
  valid := Config.fuseValid.toNat
  revoked := Config.fuseRevoked.toNat
  svn := Config.fuseSvn.val
  scalar := Config.fuseScalar.toNat
  key := Config.fuseKey.toNat
  serial := Config.fuseSerial.toNat
  ceiling := if Config.fuseHigh then 1050 else 900
  macs := [(Config.fuseMac 0).toNat, (Config.fuseMac 1).toNat]
  holdover := Config.fuseHoldover.val
  margin := 60 + Config.fuseMargin.val
  volts := [570 + (Config.fuseVolt 0).val, 600 + (Config.fuseVolt 1).val, 635 + (Config.fuseVolt 2).val, 675 + (Config.fuseVolt 3).val,
    710 + (Config.fuseVolt 4).val, 750 + (Config.fuseVolt 5).val, 790 + (Config.fuseVolt 6).val, 830 + (Config.fuseVolt 7).val]
  parity := Config.fuseParity.toNat
  free := Config.fuseFree.toNat

/-- The fields that show the fuse block, as a fundamental reset loads them (R7, R29); the repair table is loaded apart. -/
def Fuses.shadow (f : Fuses) : List (Fld × Nat) :=
  [(F.LCS_STATE_STATE, f.lifeCycle), (F.FUSE_SKU_CEILING_W, f.ceiling), (F.FUSE_SKU_STEPPING, f.stepping), (F.FUSE_SERIAL_SERIAL, f.serial),
    (F.FUSE_ROOT_STATUS_VALID, f.valid), (F.FUSE_ROOT_STATUS_REVOKED, f.revoked), (F.FUSE_SVN_SVN, f.svn), (F.FUSE_TIME_HOLDOVER_NS_S, f.holdover),
    (F.FUSE_REPAIR_FREE, f.free), (F.FUSE_STATUS_PARITY_ERR, f.parity), (F.PWR_CAP_SIDEBAND_CAP_W, f.ceiling), (F.CIM_PV_MARGIN_MARGIN_MV, f.margin),
    (F.FAB_PORT_MAC_MAC 0, nth 0 f.macs 0), (F.FAB_PORT_MAC_MAC 1, nth 0 f.macs 1)] ++
  ((List.range 4).flatMap fun i => (List.range 4).map fun j => (F.FUSE_ROOT_HASH_HASH i j, bitsAt (nth 0 f.hash i) (64 * j) 64)) ++
  ((List.range 8).map fun j => (F.FUSE_ID_PUBKEY_KEY j, bitsAt f.key (64 * j) 64)) ++
  ((List.range 8).flatMap fun i => [(F.PWR_OPP_FREQ_MHZ i, nth 0 oppFreq i), (F.PWR_OPP_VOLT_MV i, nth 0 f.volts i)]) ++
  ((List.range 4).map fun i => (F.PWR_DIE_OP_VOLT_MV i, nth 0 f.volts 0))

/-- The service nonce at reset: random (R7, R361). -/
def nonceFields (n : Nat) : List (Fld × Nat) := (List.range 4).map fun i => (F.FW_SVC_NONCE_NONCE i, (Config.freeWord (n + i)).toNat)

end Sys2Proof.Machine
end

