-- ==== Sys2Proof/Machine/Flags.lean ====
section
/-! DEFINITION. Sys2Proof/Machine/Flags.lean: IEEE 754-2019 arithmetic of the drain vector units and of promotion, with its
exception flags (R76, R92 to R100, R111). A flag set is a number: bit 0 invalid, 1 divideByZero, 2 overflow, 3 underflow,
4 inexact, in the order of the completion record (R319). -/
namespace Sys2Proof.Machine

open Sys2Proof

def flagInvalid : Nat := 1
def flagOverflow : Nat := 4
def flagUnderflow : Nat := 8
def flagInexact : Nat := 16

/-- The rounding attributes of R76. -/
inductive Rnd where
  | rne | rna | rtz | rup | rdn
  deriving DecidableEq, Repr

/-- The attribute that an RND code names; reserved codes have none (R76). -/
def Rnd.ofCode : Nat → Option Rnd
  | 0 => some .rne
  | 1 => some .rna
  | 2 => some .rtz
  | 3 => some .rup
  | 4 => some .rdn
  | _ => none

/-- A binary float format with infinities: exponent and fraction widths (R87, R92, R94, R95). -/
structure FloatFmt where
  ebits : Nat
  fbits : Nat
  deriving DecidableEq, Repr

def binary16 : FloatFmt := ⟨5, 10⟩
def binary32 : FloatFmt := ⟨8, 23⟩
def binary64 : FloatFmt := ⟨11, 52⟩
/-- F16W (R92). -/
def f16w : FloatFmt := ⟨8, 7⟩
/-- PF8B (R94). -/
def pf8b : FloatFmt := ⟨5, 2⟩
/-- F19 (R87). -/
def f19 : FloatFmt := ⟨8, 10⟩

def FloatFmt.bias (f : FloatFmt) : Nat := 2 ^ (f.ebits - 1) - 1
def FloatFmt.emin (f : FloatFmt) : Int := 1 - (f.bias : Int)
def FloatFmt.emax (f : FloatFmt) : Int := f.bias

/-- An unpacked float: a NaN with its payload aligned to 52 fraction bits (so that a narrower format keeps its top bits and a
wider one is padded with zeros, R96), an infinity, or the exact value (-1)^s m 2^e, with m = 0 for the zero of sign s. -/
inductive FVal where
  | nan (s : Bool) (payload : Nat)
  | inf (s : Bool)
  | fin (s : Bool) (m : Nat) (e : Int)
  deriving DecidableEq, Repr

/-- Unpack a code of a float format (R87, R92, R94, R95). -/
def unpack (f : FloatFmt) (x : Nat) : FVal :=
  let s := x / 2 ^ (f.ebits + f.fbits) % 2 = 1
  let e := bitsAt x f.fbits f.ebits
  let fr := bitsAt x 0 f.fbits
  if e = 2 ^ f.ebits - 1 then
    if fr = 0 then .inf s else .nan s (fr * 2 ^ (52 - f.fbits))
  else if e = 0 then .fin s fr (1 - (f.bias : Int) - f.fbits)
  else .fin s (2 ^ f.fbits + fr) ((e : Int) - f.bias - f.fbits)

/-- Unpack a PF8A code (R93): one zero, one NaN pattern 0x80, no infinity. -/
def unpackPf8a (x : Nat) : FVal :=
  let s := x / 128 % 2 = 1
  let e := bitsAt x 3 4
  let fr := bitsAt x 0 3
  if x % 256 = 0x80 then .nan false (2 ^ 51)
  else if e = 0 then .fin s fr (-9)
  else .fin s (8 + fr) ((e : Int) - 10)

/-- The default NaN of R96, unpacked. -/
def FVal.defaultNaN : FVal := .nan false (2 ^ 51)

def FVal.isNaN : FVal → Bool
  | .nan _ _ => true
  | _ => false

def FVal.isInf : FVal → Bool
  | .inf _ => true
  | _ => false

def FVal.isZero : FVal → Bool
  | .fin _ 0 _ => true
  | _ => false

/-- A finite value that is not zero. -/
def FVal.isFinNonzero : FVal → Bool
  | .fin _ (_ + 1) _ => true
  | _ => false

def FVal.sign : FVal → Bool
  | .nan s _ => s
  | .inf s => s
  | .fin s _ _ => s

/-- A signalling NaN has the top fraction bit clear. -/
def FVal.isSignalling : FVal → Bool
  | .nan _ p => !p.testBit 51
  | _ => false

/-- A NaN quieted with its payload; other values as they are (R96). -/
def FVal.quiet : FVal → FVal
  | .nan s p => .nan s (p ||| 2 ^ 51)
  | v => v

def FVal.abs : FVal → FVal
  | .nan _ p => .nan false p
  | .inf _ => .inf false
  | .fin _ m e => .fin false m e

def FVal.neg : FVal → FVal
  | .nan s p => .nan (!s) p
  | .inf s => .inf (!s)
  | .fin s m e => .fin (!s) m e

/-- An integer as an exact value; zero is +0 (R100, R111). -/
def FVal.ofInt (i : Int) : FVal := .fin (decide (i < 0)) i.natAbs 0

/-- Discard the `k` low bits of a magnitude under a rounding attribute: the rounded quotient and whether it is inexact. -/
def roundShift (rm : Rnd) (s : Bool) (m k : Nat) : Nat × Bool :=
  let q := m / 2 ^ k
  let r := m % 2 ^ k
  let up : Bool := match rm with
    | .rne => decide (2 ^ k < 2 * r) || (decide (2 * r = 2 ^ k) && q % 2 = 1)
    | .rna => decide (2 ^ k ≤ 2 * r) && decide (r ≠ 0)
    | .rtz => false
    | .rup => decide (r ≠ 0) && !s
    | .rdn => decide (r ≠ 0) && s
  (if up then q + 1 else q, decide (r ≠ 0))

/-- What rounding a finite non-zero value to `p` bits of precision gives: a significand and the exponent of its last bit,
with inexactness and tininess after rounding, or a value beyond the largest finite one. -/
inductive Rounded where
  | val (m : Nat) (q : Int) (inexact tiny : Bool)
  | tooLarge
  deriving DecidableEq, Repr

/-- Align a magnitude to exponent `q` under a rounding attribute. -/
def alignTo (rm : Rnd) (s : Bool) (m : Nat) (e q : Int) : Nat × Bool :=
  if q ≤ e then (m * 2 ^ (e - q).toNat, false) else roundShift rm s m (q - e).toNat

/-- Round (-1)^s m 2^e, m > 0, to precision `p` with exponents from `emin` to `emax`; tininess is detected after rounding
(R95). `maxm` is the largest significand at `emax`. -/
def roundFin (p : Nat) (emin emax : Int) (maxm : Nat) (rm : Rnd) (s : Bool) (m : Nat) (e : Int) : Rounded :=
  let free : Int := e + bitLen m - p
  let q := max free (emin - p + 1)
  let (m1, ix) := alignTo rm s m e q
  let (m2, q2) := if m1 = 2 ^ p then (2 ^ (p - 1), q + 1) else (m1, q)
  let (u, _) := alignTo rm s m e free
  let tiny : Bool := decide (free + p - 1 < emin) && !(decide (u = 2 ^ p) && decide (free + p = emin))
  if q2 + p - 1 > emax ∧ 2 ^ (p - 1) ≤ m2 then .tooLarge
  else if q2 + p - 1 = emax ∧ maxm < m2 then .tooLarge
  else .val m2 q2 ix tiny

/-- The code of a rounded significand in a float format. -/
def packFin (f : FloatFmt) (s : Bool) (m : Nat) (q : Int) : Nat :=
  let sb := b01 s * 2 ^ (f.ebits + f.fbits)
  if m < 2 ^ f.fbits then sb + m
  else sb + (q + f.fbits + f.bias).toNat * 2 ^ f.fbits + (m - 2 ^ f.fbits)

def packInf (f : FloatFmt) (s : Bool) : Nat :=
  b01 s * 2 ^ (f.ebits + f.fbits) + (2 ^ f.ebits - 1) * 2 ^ f.fbits

def packMax (f : FloatFmt) (s : Bool) : Nat := packInf f s - 1

/-- A NaN keeps the top bits of its payload, quieted (R92, R96). -/
def packNaN (f : FloatFmt) (s : Bool) (payload : Nat) : Nat :=
  packInf f s + (payload ||| 2 ^ 51) / 2 ^ (52 - f.fbits)

/-- A code, the flags it raised, and whether a finite value was written as the largest finite one under SAT (R97). -/
structure Packed where
  code : Nat
  flags : Nat
  sat : Bool
  deriving DecidableEq, Repr

/-- Convert an exact value into a float format with infinities under a rounding attribute and SAT (R75, R97, R98). -/
def pack (f : FloatFmt) (rm : Rnd) (satMode : Bool) (v : FVal) : Packed :=
  match v with
  | .nan s p => ⟨packNaN f s p, if v.isSignalling then flagInvalid else 0, false⟩
  | .inf s => ⟨packInf f s, 0, false⟩
  | .fin s 0 _ => ⟨b01 s * 2 ^ (f.ebits + f.fbits), 0, false⟩
  | .fin s (m + 1) e =>
    match roundFin (f.fbits + 1) f.emin f.emax (2 ^ (f.fbits + 1) - 1) rm s (m + 1) e with
    | .val m' q ix tiny =>
      ⟨packFin f s m' q, (if ix then flagInexact else 0) + (if ix && tiny then flagUnderflow else 0), false⟩
    | .tooLarge =>
      if satMode then ⟨packMax f s, flagInexact, true⟩
      else
        let toInf := match rm with
          | .rne | .rna => true
          | .rtz => false
          | .rup => !s
          | .rdn => s
        ⟨if toInf then packInf f s else packMax f s, flagOverflow + flagInexact, false⟩

/-- Convert an exact value into PF8A (R93, R97, R98): a value beyond 480, and an infinity, saturates. -/
def packPf8a (rm : Rnd) (v : FVal) : Packed :=
  match v with
  | .nan _ _ => ⟨0x80, if v.isSignalling then flagInvalid else 0, false⟩
  | .inf s => ⟨b01 s * 128 + 0x7F, flagInexact, true⟩
  | .fin _ 0 _ => ⟨0, 0, false⟩
  | .fin s (m + 1) e =>
    match roundFin 4 (-6) 8 15 rm s (m + 1) e with
    | .tooLarge => ⟨b01 s * 128 + 0x7F, flagInexact, true⟩
    | .val m' q ix tiny =>
      let fl := (if ix then flagInexact else 0) + (if ix && tiny then flagUnderflow else 0)
      if m' = 0 then ⟨0, fl, false⟩
      else if m' < 8 then ⟨b01 s * 128 + m', fl, false⟩
      else ⟨b01 s * 128 + (q + 10).toNat * 8 + (m' - 8), fl, false⟩

/-- An exact sum: a sign, a magnitude and an exponent, zero taking the sign roundTiesToEven gives it (R100). -/
def addExact (s1 : Bool) (m1 : Nat) (e1 : Int) (s2 : Bool) (m2 : Nat) (e2 : Int) : FVal :=
  let e := min e1 e2
  let a : Int := (if s1 then -1 else 1) * ((m1 * 2 ^ (e1 - e).toNat : Nat) : Int)
  let b : Int := (if s2 then -1 else 1) * ((m2 * 2 ^ (e2 - e).toNat : Nat) : Int)
  if a + b = 0 then .fin (s1 && s2) 0 0 else .fin (decide (a + b < 0)) (a + b).natAbs e

/-- The exact value of fusedMultiplyAdd(a, b, c) before its rounding, with the invalid flag (R95, R96). -/
def fmaExact (a b c : FVal) : FVal × Nat :=
  let inv := if a.isSignalling || b.isSignalling || c.isSignalling then flagInvalid else 0
  let zeroInf := (a.isZero && b.isInf) || (a.isInf && b.isZero)
  if a.isNaN then (a.quiet, inv)
  else if b.isNaN then (b.quiet, inv)
  else if zeroInf then (if c.isNaN then c.quiet else FVal.defaultNaN, flagInvalid)
  else if c.isNaN then (c.quiet, inv)
  else
    let s := a.sign != b.sign
    match a, b, c with
    | .fin _ ma ea, .fin _ mb eb, .fin sc mc ec =>
      if ma * mb = 0 then (if mc = 0 then .fin (s && sc) 0 0 else c, 0)
      else if mc = 0 then (.fin s (ma * mb) (ea + eb), 0)
      else (addExact s (ma * mb) (ea + eb) sc mc ec, 0)
    | .fin _ _ _, .fin _ _ _, other => (other, 0)
    | _, _, .inf sc => if sc = s then (.inf s, 0) else (FVal.defaultNaN, flagInvalid)
    | _, _, _ => (.inf s, 0)

/-- A binary64 code and the flags raised. -/
abbrev B64 := Nat × Nat

def b64 (x : Nat) : FVal := unpack binary64 x

def roundB64 (v : FVal × Nat) : B64 :=
  let r := pack binary64 .rne false v.1
  (r.code, v.2 ||| r.flags)

/-- fusedMultiplyAdd in binary64 with roundTiesToEven (R95, R111). -/
def b64Fma (a b c : Nat) : B64 := roundB64 (fmaExact (b64 a) (b64 b) (b64 c))

/-- The binary64 code of 1. -/
def b64One : Nat := 0x3FF0000000000000

/-- The default binary64 NaN (R96). -/
def b64NaN : Nat := 0x7FF8000000000000

/-- Addition in binary64 with roundTiesToEven; operand order a, b (R95, R96, R155). -/
def b64Add (a b : Nat) : B64 := roundB64 (fmaExact (b64 a) (b64 b64One) (b64 b))

/-- Multiplication in binary64 with roundTiesToEven; operand order a, b (R95, R96, R155). -/
def b64Mul (a b : Nat) : B64 :=
  let s := (b64 a).sign != (b64 b).sign
  roundB64 (fmaExact (b64 a) (b64 b) (.fin s 0 0))

/-- The quotient of two finite non-zero values with `extra` bits beyond the divisor's length and a sticky last bit, so that any
rounding to fewer bits is that of the exact quotient. -/
def divSticky (s : Bool) (ma : Nat) (ea : Int) (mb : Nat) (eb : Int) : FVal :=
  let k := 120 + bitLen mb
  let n := ma * 2 ^ k
  let q := n / mb
  let m := 2 * q + (if n % mb = 0 then 0 else 1)
  .fin s m (ea - eb - k - 1)

/-- The exact quotient of two values (up to a sticky bit); flags are not reported, for quantisation raises none (R101). -/
def divVal (a b : FVal) : FVal :=
  if a.isNaN then a.quiet
  else if b.isNaN then b.quiet
  else
    let s := a.sign != b.sign
    match a, b with
    | .inf _, .inf _ => FVal.defaultNaN
    | .inf _, _ => .inf s
    | .fin _ _ _, .inf _ => .fin s 0 0
    | .fin _ 0 _, .fin _ 0 _ => FVal.defaultNaN
    | .fin _ 0 _, .fin _ _ _ => .fin s 0 0
    | .fin _ _ _, .fin _ 0 _ => .inf s
    | .fin _ ma ea, .fin _ mb eb => divSticky s ma ea mb eb
    | _, _ => FVal.defaultNaN

/-- The order of two values that are not NaN: whether the first is below the second, with -0 equal to +0. -/
def FVal.lt : FVal → FVal → Bool
  | .nan _ _, _ => false
  | _, .nan _ _ => false
  | .inf sa, .inf sb => sa && !sb
  | .inf sa, .fin _ _ _ => sa
  | .fin _ _ _, .inf sb => !sb
  | .fin sa ma ea, .fin sb mb eb =>
    let e := min ea eb
    let a : Int := (if sa then -1 else 1) * ((ma * 2 ^ (ea - e).toNat : Nat) : Int)
    let b : Int := (if sb then -1 else 1) * ((mb * 2 ^ (eb - e).toNat : Nat) : Int)
    decide (a < b)

/-- Whether the first of two values that are not NaN is at most the second, with -0 equal to +0. -/
def FVal.le (a b : FVal) : Bool := !a.isNaN && !b.isNaN && !FVal.lt b a

/-- The order that maximumNumber and minimumNumber use: as `lt`, with -0 below +0 (R99). -/
def FVal.ltZ (a b : FVal) : Bool :=
  FVal.lt a b || (a.isZero && b.isZero && a.sign && !b.sign)

/-- The choice of maximumNumber (`mx = true`) or minimumNumber, on codes of binary64 (R99). -/
def b64MinMax (mx : Bool) (a b : Nat) : B64 :=
  let va := b64 a
  let vb := b64 b
  let inv := if va.isSignalling || vb.isSignalling then flagInvalid else 0
  let q := fun (v : FVal) => (pack binary64 .rne false v.quiet).code
  if va.isNaN && vb.isNaN then (q va, inv)
  else if va.isNaN then (b, inv)
  else if vb.isNaN then (a, inv)
  else if mx then (if FVal.ltZ va vb then b else a, 0)
  else (if FVal.ltZ vb va then b else a, 0)

/-- The larger of two values by magnitude, both finite. -/
def FVal.maxAbs (a b : FVal) : FVal := if FVal.lt a.abs b.abs then b.abs else a.abs

/-- A value that a float format represents, as its binary64 code; exact for every format of the device but binary64 itself,
whose codes pass as they are apart from the quieting of NaNs. -/
def toB64 (v : FVal) : Nat := (pack binary64 .rne false v).code

end Sys2Proof.Machine
end

