-- ==== Sys2Proof/Machine/Operands.lean ====
section
/-! DEFINITION. Sys2Proof/Machine/Operands.lean: operand forms: element formats (R73, R74, R77 to R94), the conversion control word (R75),
conversions of the load and store paths (R82 to R91, R97 to R103), scale references (R118, R121). -/
namespace Sys2Proof.Machine

open Sys2Proof

/-! ### Format codes (R73) -/

/-- Bits per element in memory (R73); reserved codes have none. -/
def fmtBits : Nat → Option Nat
  | 0x00 | 0x01 | 0x02 => some 1
  | 0x03 | 0x04 => some 2
  | 0x05 | 0x06 => some 4
  | 0x07 | 0x08 => some 8
  | 0x09 | 0x0A | 0x0B | 0x0C => some 16
  | 0x0D | 0x0E => some 8
  | 0x0F | 0x10 => some 4
  | 0x11 | 0x14 => some 16
  | 0x12 | 0x13 => some 8
  | 0x15 => some 32
  | 0x16 => some 64
  | _ => none

/-- Bits per element, 0 for a reserved code. -/
def fmtWidth (c : Nat) : Nat := (fmtBits c).getD 0

/-- Integer formats: whether signed, and the value width b (R77). -/
def fmtInt : Nat → Option (Bool × Nat)
  | 0x00 => some (false, 1)
  | 0x01 => some (true, 1)
  | 0x03 => some (false, 2)
  | 0x04 => some (true, 2)
  | 0x05 => some (false, 4)
  | 0x06 => some (true, 4)
  | 0x07 => some (false, 8)
  | 0x08 => some (true, 8)
  | 0x09 => some (false, 12)
  | 0x0A => some (true, 12)
  | 0x0B => some (false, 16)
  | 0x0C => some (true, 16)
  | _ => none

/-- Block formats: mantissa bits, F, block size (R80). -/
def fmtBlock : Nat → Option (Nat × Nat × Nat)
  | 0x0D => some (8, 6, 16)
  | 0x0E => some (8, 6, 32)
  | 0x0F => some (4, 2, 16)
  | 0x10 => some (4, 2, 32)
  | _ => none

/-- The float formats with infinities that have a code; PF8A (0x12) stands apart (R93). -/
def fmtFloat : Nat → Option FloatFmt
  | 0x11 => some f16w
  | 0x13 => some pf8b
  | 0x14 => some binary16
  | 0x15 => some binary32
  | 0x16 => some binary64
  | _ => none

def isPf8a (c : Nat) : Bool := c = 0x12

/-- Float codes a MATRIX operand may take: F16W, PF8A, PF8B, binary16, binary32 (R73, R89, R135). -/
def isFloatOperand (c : Nat) : Bool := c = 0x11 || c = 0x12 || c = 0x13 || c = 0x14 || c = 0x15

/-- Store-path targets (R73). -/
def isStoreTarget (c : Nat) : Bool := decide (3 ≤ c) && decide (c ≤ 0x16)

/-- The exact value of a float element (R92 to R95). -/
def floatVal (c x : Nat) : FVal :=
  if isPf8a c then unpackPf8a x
  else match fmtFloat c with
    | some f => unpack f x
    | none => FVal.defaultNaN

/-- The value of an integer or BIN element (R77, R78): BIN is +1 for the bit 1 and -1 for the bit 0; containers of 12-bit elements
have their bits 15..12 ignored (R74). -/
def intVal (c x : Nat) : Int :=
  if c = 0x02 then (if x % 2 = 1 then 1 else -1)
  else match fmtInt c with
    | some (true, b) => toSigned b x
    | some (false, b) => ((x % 2 ^ b : Nat) : Int)
    | none => 0

/-- Activation planes of a format in the macro (R43, R73, R78, R85). -/
def fmtPlanes : Nat → Nat
  | 0x00 | 0x01 => 1
  | 0x02 | 0x03 | 0x04 => 2
  | 0x05 | 0x06 | 0x0F | 0x10 => 4
  | 0x07 | 0x08 | 0x0D | 0x0E => 8
  | 0x09 | 0x0A => 12
  | 0x0B | 0x0C => 16
  | _ => 0

/-! ### The conversion control word (R75) -/

def convFmt (w : Nat) : Nat := bitsAt w 0 5
def convRnd (w : Nat) : Rnd := (Rnd.ofCode (bitsAt w 5 3)).getD .rne
def convSat (w : Nat) : Bool := bitsAt w 8 1 = 1
def convF19Rnd (w : Nat) : Bool := bitsAt w 9 1 = 1

/-- No reserved code in FMT or RND and no reserved bit (R73, R75). -/
def convOk (w : Nat) : Bool :=
  (fmtBits (convFmt w)).isSome && (Rnd.ofCode (bitsAt w 5 3)).isSome && bitsAt w 10 6 = 0

/-! ### Counts of an operation (R103, R128) -/

/-- The counters of R128 with the IEEE flags of R95. `firstSat` is the lowest saturated deck tile, if any. -/
structure Counts where
  sat : Nat := 0
  flushed : Nat := 0
  nan : Nat := 0
  splits : Nat := 0
  nulls : Nat := 0
  satChunks : Nat := 0
  satTiles : Nat := 0
  replayed : Nat := 0
  firstSat : Option Nat := none
  flags : Nat := 0
  deriving DecidableEq, Repr

def optMin : Option Nat → Option Nat → Option Nat
  | none, b => b
  | a, none => a
  | some a, some b => some (min a b)

/-- Counts are exact sums; flags are an OR (R95, R103). -/
def Counts.add (a b : Counts) : Counts :=
  { sat := a.sat + b.sat, flushed := a.flushed + b.flushed, nan := a.nan + b.nan, splits := a.splits + b.splits,
    nulls := a.nulls + b.nulls, satChunks := a.satChunks + b.satChunks, satTiles := a.satTiles + b.satTiles,
    replayed := a.replayed + b.replayed, firstSat := optMin a.firstSat b.firstSat, flags := a.flags ||| b.flags }

/-- The class a conversion gives an element, in the priority of R103. -/
inductive Cls where
  | none | nan | sat | flushed
  deriving DecidableEq, Repr

def Counts.ofCls : Cls → Counts
  | .none => {}
  | .nan => { nan := 1 }
  | .sat => { sat := 1 }
  | .flushed => { flushed := 1 }

def Counts.sum : List Counts → Counts
  | [] => {}
  | c :: t => c.add (Counts.sum t)

/-! ### Quantisation (R79, R101) -/

/-- The symmetric range of an integer target (R79). -/
def symRange (signed : Bool) (b : Nat) : Int × Int :=
  if signed then (-((2 ^ (b - 1) - 1 : Nat) : Int), ((2 ^ (b - 1) - 1 : Nat) : Int)) else (0, ((2 ^ b - 1 : Nat) : Int))

/-- floor(|q| + 0.5) of a finite value (R101 step 2). -/
def roundHalfAway (m : Nat) (e : Int) : Nat :=
  if 0 ≤ e then m * 2 ^ e.toNat else (m + 2 ^ ((-e).toNat - 1)) / 2 ^ (-e).toNat

/-- Quantise a binary64 value with a scale to an integer target (R98, R101): the code and its class. -/
def quantise (signed : Bool) (b : Nat) (x : Nat) (s : FVal) : Int × Cls :=
  let (lo, hi) := symRange signed b
  let v := b64 x
  if v.isNaN then (0, .nan)
  else
    let q := b64 (pack binary64 .rne false (divVal v s)).code
    match q with
    | .nan _ _ => (0, .nan)
    | .inf sg => (if sg then lo else hi, .sat)
    | .fin sg m e =>
      let mag := roundHalfAway m e
      let c : Int := if sg then -(mag : Int) else mag
      if c < lo then (lo, .sat)
      else if hi < c then (hi, .sat)
      else (c, if c = 0 && v.isFinNonzero then .flushed else .none)

/-- Qmax of a format (R121). -/
def qmaxOf : Nat → Option Nat
  | 0x00 | 0x01 | 0x02 => some 1
  | c => match fmtInt c with
    | some (true, b) => some (2 ^ (b - 1) - 1)
    | some (false, b) => some (2 ^ b - 1)
    | none => none

/-- Qmax of a resident weight operand, by slot width (R121). -/
def qmaxOfSlot : Nat → Nat
  | 0 => 1
  | 1 => 1
  | 2 => 7
  | 3 => 127
  | _ => 32767

/-- maxabs / Qmax in binary64, rounded to binary32 with roundTowardPositive; 1.0 for a maxabs of zero (R121, R123). -/
def scaleFromMax (maxabs : FVal) (qmax : Nat) : Nat :=
  if maxabs.isZero then 0x3F800000
  else
    let d := b64 (pack binary64 .rne false (divVal maxabs (.fin false qmax 0))).code
    (pack binary32 .rup false d).code

/-- The scale that a statistics entry gives: bit 31 plays no part (R121). -/
def scaleFromEntry (entry qmax : Nat) : Nat := scaleFromMax (unpack binary32 (entry % 2 ^ 31)) qmax

/-! ### Block conversion (R80 to R84) and pairing (R86) -/

/-- floor(m 2^k). -/
def shiftFloor (m : Nat) (k : Int) : Nat := if 0 ≤ k then m * 2 ^ k.toNat else m / 2 ^ (-k).toNat

/-- A block: its exponent byte and its mantissa codes (sign bit on top of the magnitude). -/
structure Block where
  exp : Nat
  man : List Nat
  deriving DecidableEq, Repr

/-- The marker of an element of a non-finite block (R81). -/
def blockMarker (mbits : Nat) (x : FVal) : Nat :=
  match x with
  | .nan _ _ => 2 ^ (mbits - 1) - 1
  | .inf s => b01 s * 2 ^ (mbits - 1) + 2 ^ (mbits - 1) - 2
  | .fin _ _ _ => 0

/-- The biased exponent of R82, at least 1, of a finite element unpacked from a format with bias and fraction width `off` in sum. -/
def bexp (off : Nat) : FVal → Nat
  | .fin _ _ e => (e + off).toNat
  | _ => 0

/-- Conversion of a block of elements (R82): the block and what it counts. `off` is 150 for binary32 and 137
for F19 elements; the list holds the elements inside the matrix edge, the only ones that take part (R84, R103). -/
def blockConvert (mbits F off : Nat) (xs : List FVal) : Block × Counts :=
  if xs.any (fun x => x.isNaN || x.isInf) then
    (⟨0xFF, xs.map (blockMarker mbits)⟩, { nan := (xs.filter (·.isNaN)).length })
  else if xs.all (·.isZero) then (⟨0, xs.map fun _ => 0⟩, { nulls := 1 })
  else
    let E := xs.foldl (fun a x => if x.isZero then a else max a (bexp off x)) 1
    let mag := fun (x : FVal) => match x with
      | .fin _ m e => shiftFloor m (e - ((E : Int) - 127 - F))
      | _ => 0
    (⟨E, xs.map fun x => if mag x = 0 then 0 else b01 x.sign * 2 ^ (mbits - 1) + mag x⟩,
      { flushed := (xs.filter fun x => x.isFinNonzero && decide (mag x = 0)).length })

/-- The two's complement value of a mantissa code (R85). -/
def mantVal (mbits c : Nat) : Int :=
  let m := c % 2 ^ (mbits - 1)
  if c / 2 ^ (mbits - 1) % 2 = 1 then -(m : Int) else m

/-- What reading a non-finite block as an operand counts as NaN inputs: the markers of R81, 0x7F, 0x7E and 0xFE (or 0x7, 0x6
and 0xE), each once. -/
def markerInputs (mbits : Nat) (man : List Nat) : Nat :=
  (man.filter fun c => c = 2 ^ (mbits - 1) - 1 || c = 2 ^ (mbits - 1) - 2 || c = 2 ^ mbits - 2).length

/-- Pairing of two .16 activation blocks into one 32-element compute block (R86), with what it counts as flushed. -/
def pairBlocks (mbits : Nat) (a b : Block) : Block × Counts :=
  let fin := fun (x : Block) => decide (x.exp ≠ 0xFF)
  if a.exp = 0xFF || b.exp = 0xFF then
    (⟨0xFF, (if fin a then a.man.map fun _ => 0 else a.man) ++ (if fin b then b.man.map fun _ => 0 else b.man)⟩, {})
  else
    let E := max a.exp b.exp
    let shifted : Block → List Nat := fun x => x.man.map fun c =>
      if x.exp = 0 then 0
      else
        let m := c % 2 ^ (mbits - 1) / 2 ^ (E - x.exp)
        if m = 0 then 0 else c / 2 ^ (mbits - 1) % 2 * 2 ^ (mbits - 1) + m
    let lost : Block → Nat := fun x => if x.exp = 0 then 0 else
      (x.man.filter fun c => c % 2 ^ (mbits - 1) ≠ 0 && c % 2 ^ (mbits - 1) / 2 ^ (E - x.exp) = 0).length
    (⟨E, shifted a ++ shifted b⟩, { flushed := lost a + lost b })

/-- The value of a block element (R80, R81), for CONVERT: NaN and infinity markers decode, other elements of a non-finite block
are the default NaN, a null block is all +0. -/
def blockElem (mbits F : Nat) (E c : Nat) : FVal :=
  if E = 0 then .fin false 0 0
  else if E = 0xFF then
    if c = 2 ^ (mbits - 1) - 2 then .inf false
    else if c = 2 ^ mbits - 2 then .inf true
    else FVal.defaultNaN
  else
    let m := c % 2 ^ (mbits - 1)
    if m = 0 then .fin false 0 0 else .fin (c / 2 ^ (mbits - 1) % 2 = 1) m ((E : Int) - 127 - F)

/-! ### F19 (R87 to R91) -/

/-- A float element as its F19 code in the load path (R88, R89). A binary32 magnitude of exactly 0x7F7F_F000 under F19_RND = 1 is a tie, which
ties to even carry to infinity, although R88 says that this happens only above that magnitude (log entry 245: DESIGN CHOICE). -/
def toF19 (c : Nat) (f19Rnd : Bool) (x : Nat) : Nat :=
  (pack f19 (if f19Rnd then .rne else .rtz) false (floatVal c x)).code

/-- The flags that the conversion raises: invalid for a signalling NaN (R96), underflow for a non-zero value that rounds to zero (R98). No other flag
(log entry 246: DEDUCED). -/
def f19Flags (c : Nat) (f19Rnd : Bool) (x : Nat) : Nat :=
  let v := floatVal c x
  (if v.isSignalling then flagInvalid else 0) |||
    (if v.isFinNonzero && (unpack f19 (toF19 c f19Rnd x)).isZero then flagUnderflow else 0)

/-- The flags of a group of elements. -/
def f19GroupFlags (c : Nat) (f19Rnd : Bool) (xs : List Nat) : Nat := xs.foldl (fun a x => a ||| f19Flags c f19Rnd x) 0

/-- An aligned F19 group: its exponent byte and its values: signed activation codes, or signed weight magnitudes (R90). -/
structure F19Group where
  exp : Nat
  vals : List Int
  deriving DecidableEq, Repr

/-- Alignment of an F19 group (R90), from F19 codes; `weight` selects the weight side with its five further bits. -/
def f19Align (weight : Bool) (xs : List Nat) : F19Group × Counts :=
  let vs := xs.map (unpack f19)
  if vs.any (fun x => x.isNaN || x.isInf) then
    (⟨0xFF, xs.map fun x =>
        if weight then
          let c := (Config.f19NonFiniteWeight (BitVec.ofNat 19 x)).toNat
          if c / 2 ^ 16 % 2 = 1 then -((c % 2 ^ 16 : Nat) : Int) else ((c % 2 ^ 16 : Nat) : Int)
        else (Config.f19NonFiniteActivation (BitVec.ofNat 19 x)).toInt⟩,
      { nan := (vs.filter (·.isNaN)).length })
  else if vs.all (·.isZero) then (⟨0, xs.map fun _ => 0⟩, { nulls := 1 })
  else
    let Eg := vs.foldl (fun a x => if x.isZero then a else max a (bexp 137 x)) 1
    let mag := fun (x : FVal) => match x with
      | .fin _ m _ => (if weight then m * 32 else m) / 2 ^ (Eg - bexp 137 x)
      | _ => 0
    (⟨Eg, vs.map fun x => if x.sign then -(mag x : Int) else mag x⟩,
      { flushed := (vs.filter fun x => x.isFinNonzero && decide (mag x = 0)).length })

/-! ### The store path (R97, R98, R102) -/

/-- One element converted into a float or integer target: code in memory form, flags, class (R74, R98, R102). -/
structure Conv where
  code : Nat
  flags : Nat
  cls : Cls
  deriving DecidableEq, Repr

/-- Memory form of an integer code: containers of INT12 are filled with copies of bit 11, of UINT12 with zeros (R74). -/
def intCode (c : Nat) (v : Int) : Nat := if c = 0x09 then ofSigned 12 v else ofSigned (fmtWidth c) v

/-- Conversion of a binary64 value by an output conversion, for a target that is not a block format; `s` is the scale of an integer
target, 1.0 where the step has none (R98, R101, R102). -/
def convertElem (conv : Nat) (x : Nat) (s : FVal) : Conv :=
  let c := convFmt conv
  match fmtInt c with
  | some (sg, b) =>
    let (v, k) := quantise sg b x s
    ⟨intCode c v, 0, k⟩
  | none =>
    let v := b64 x
    let r := if isPf8a c then packPf8a (convRnd conv) v
      else match fmtFloat c with
        | some f => pack f (convRnd conv) (convSat conv) v
        | none => ⟨0, 0, false⟩
    ⟨r.code, r.flags, if v.isNaN then .nan else if r.sat then .sat else .none⟩

/-- Conversion of a binary64 value into F19 in the store path: one rounding under RND, directly from binary64 (R102); SAT acts as on the other
floats with an infinity (log entry 247: DESIGN CHOICE), and F19_RND has no effect (R76). -/
def storeF19 (conv : Nat) (x : Nat) : Conv :=
  let v := b64 x
  let r := pack f19 (convRnd conv) (convSat conv) v
  ⟨r.code, r.flags, if v.isNaN then .nan else if r.sat then .sat else .none⟩

/-- The first step of a block target: conversion to binary32 under RND and SAT, with the flags and whether it saturated (R82, R102). -/
def toBinary32 (conv : Nat) (x : Nat) : FVal × Nat × Bool :=
  let r := pack binary32 (convRnd conv) (convSat conv) (b64 x)
  (unpack binary32 r.code, r.flags, r.sat)

/-- Conversion of a group of binary64 values into one block (R82, R84, R102, R103): an element that saturated to binary32 is counted
as saturated and not as flushed. -/
def convertBlock (conv : Nat) (xs : List Nat) : Block × Counts :=
  match fmtBlock (convFmt conv) with
  | none => (⟨0, []⟩, {})
  | some (mbits, F, _) =>
    let cs := xs.map (toBinary32 conv)
    let (b, k) := blockConvert mbits F 150 (cs.map (·.1))
    (b, { k with sat := (cs.filter (·.2.2)).length, flags := cs.foldl (fun a c => a ||| c.2.1) 0 })

/-! ### Scale references (R118) -/

/-- A scale reference: 16 bytes (R118). -/
structure ScaleRef where
  addr : Nat
  mode : Nat
  group : Nat
  source : Nat
  stride : Nat
  rsv : Bool
  deriving DecidableEq, Repr

/-- Read a scale reference from a structure, at byte `b` (R118). -/
def scaleRefAt (w b : Nat) : ScaleRef :=
  ⟨fld w b 0 64, fld w (b + 8) 0 3, fld w (b + 8) 3 2, fld w (b + 8) 5 2, fld w (b + 12) 0 32,
    fld w (b + 8) 7 1 ≠ 0 || fld w (b + 9) 0 24 ≠ 0⟩

/-- Group size of MODE 3 (R118). -/
def ScaleRef.groupSize (r : ScaleRef) : Nat := 32 * 2 ^ r.group

/-- Rules of R118 that hold for every reference: no reserved MODE, GROUP or SOURCE, no reserved bit, alignment, no SOURCE other than 0
with MODE 0, a line stride that is a multiple of 4 for binary32 entries. -/
def ScaleRef.ok (r : ScaleRef) : Bool :=
  !r.rsv && decide (r.mode ≤ 4) && decide (r.source ≤ 2) && (r.mode ≠ 3 || decide (r.group ≤ 2))
    && (r.mode = 0 || decide (r.addr % 64 = 0)) && ((r.mode ≠ 0 && r.mode ≠ 4) || decide (r.source = 0))
    && (r.mode ≠ 3 || decide (r.stride % 4 = 0))

end Sys2Proof.Machine
end

