-- ==== Sys2Proof/Machine/State.lean ====
section
/-! DEFINITION. Sys2Proof/Machine/State.lean: the state of the block as plain data, its faults and refusals, the state after reset. -/
namespace Sys2Proof.Machine

open Sys2Proof

/-- Why a command cannot be carried out at all: there is no such reason. Every command has an effect in every state; what the spec
refuses, it refuses with a status or a count, which is state. -/
inductive Fault where
  deriving DecidableEq, Repr

/-- Why a command has no meaning in the model. -/
inductive Refusal where
  /-- Raised by `exec` for a command of the table that has no meaning yet. Safe: nothing is proved of it. -/
  | notModelled (mnemonic : String)
  deriving DecidableEq, Repr

/-! ### What leaves the block -/

/-- What the block sends outwards, oldest first: the model's record of its outputs. -/
inductive Out where
  /-- A memory write request to host memory under the requester ID of a function (R299, R319). -/
  | hostWrite (f addr : Nat) (data : List Byte)
  /-- A read request to host memory. -/
  | hostRead (f addr len : Nat)
  /-- An MSI-X message of vector `v` of function `f` (R296, R322). -/
  | msix (f v : Nat)
  /-- The value a register read returns to its requester (R5). -/
  | readReply (r : Requester) (value : Nat)
  /-- The bytes a BAR4 read returns (R300). -/
  | bar4Reply (f : Nat) (data : List Byte)
  /-- An Unsupported Request completion: a read of a function in D3hot (R333). -/
  | unsupported (f : Nat)
  /-- What a bank returns to a claim of a master (R191, R194, R199): data, or an error. -/
  | bankReply (master : Nat) (data : List Byte) (error : Bool)
  /-- The unit that a stack read returns, or an error (R221, R227). -/
  | unitReply (data : List Byte) (error : Bool)
  /-- The value an atomic returns, or the status it ends with (R194, R196). -/
  | atomicReply (status value : Nat)
  /-- An Ethernet frame sent on a fabric port (R262): destination and source address, the 802.1Q tag control information, the EtherType, and the header and payload of
  a Dyosh frame; the FCS covers them. -/
  | frame (port dst src tci etherType : Nat) (data : List Byte)
  /-- What a read of a doorbell page returns (R306). -/
  | doorbellReply (f : Nat) (data : List Byte)
  /-- The answer to a configuration request (R292): the vendor ID, device ID, revision ID and class code of its function, or a retry status. -/
  | configReply (identity : Option (Nat × Nat × Nat × Nat))
  /-- An SPDM response (R365): a code and its payload. -/
  | spdm (code : Nat) (data : List Byte)
  /-- An MCTP control or PLDM response or event message (R436 to R441): a code and its payload. -/
  | pldm (code : Nat) (data : List Byte)
  /-- What hardware tells a Helam processor, by processor and cause. Processor 0: 5 a refused vault access, 8 a failed wipe. Processor 5:
  1 a marginal row, 2 a failed row, 3 a link segment, 4 a failed start, 6 a lasting error of an array, 7 a lasting cell, 8 a failed wipe, 9 a
  lasting error of a stack, 10 a stack link, 11 a failed wall. -/
  | told (proc cause arg : Nat)
  deriving DecidableEq, Repr

/-! ### Macros -/

/-- Who asked for a write of a bank: an in-flight WEIGHT_WRITE, the sequencer's load for a streaming operation (R160), or a drain (R161). -/
inductive WriteSrc where
  | desc (flight : Nat)
  | load (flight : Nat)
  | drain (flight : Nat)
  deriving DecidableEq, Repr

/-- A write of one bank of one macro (R54 to R59): 512 row images, and its progress. -/
structure WriteJob where
  src : WriteSrc
  bank : Nat
  slot : Nat
  wsid : Nat
  single : Bool
  images : List Nat
  /-- Row in progress and its attempt number (program-and-verify, R54). -/
  row : Nat := 0
  attempt : Nat := 1
  fails : Nat := 0
  firstFail : Nat := 0
  maxAttempt : Nat := 1
  /-- Device address of the macro image it came from, its format and rows, kept as the provenance record (R403). -/
  srcAddr : Nat := 0
  srcFmt : Nat := 0
  srcRows : Nat := 0
  srcCrc : Nat := 0
  deriving DecidableEq, Repr

/-- An entry of a macro's bank order (R60): an operation, or a swap and what it expects. `late` marks a course-scheduled swap. -/
inductive OrderItem where
  | op (flight : Nat)
  | swap (flight : Option Nat) (dest expect : Nat)
  deriving DecidableEq, Repr

/-- What a macro holds beside its registers and cells, by logical core and macro index. -/
structure MacroRun where
  order : List OrderItem := []
  write : Option WriteJob := none
  waiting : List WriteJob := []
  /-- Whether the first vector of the present tile was driven (R50, R51), and the operation whose first-vector check passed (R62). -/
  tileOpen : Bool := false
  checked : Option Nat := none
  deriving DecidableEq, Repr

/-! ### Cores -/

/-- A chunk in the chunk queue: output row and column in the block, the K of its first element, its value (R109, R115), and the exponents
that the load path made for its group: of the activations, and of a streaming load (R110). -/
structure Chunk where
  row : Nat
  col : Nat
  k0 : Nat
  value : Int
  aexp : Nat
  bexp : Nat
  deriving DecidableEq, Repr

/-- A chunk being summed: first K, value so far, whether it has been limited (R109). -/
structure OpenChunk where
  k0 : Nat
  value : Int
  limited : Bool
  deriving DecidableEq, Repr

/-- A row of totals on a neighbour link (R114): block, row, binary64 totals, tile saturation flag. -/
structure LinkRow where
  block : Nat
  row : Nat
  totals : List Nat
  sat : Bool
  deriving DecidableEq, Repr

/-- A block handed to the drain: its origin, its totals by row × COLS + column (an unlisted total is +0), its flag; whether its first drain has
found it due for a replay (R125). -/
structure DrainBlock where
  m : Nat
  n : Nat
  totals : Table Nat
  sat : Bool
  replayDue : Bool := false
  deriving DecidableEq, Repr

/-- A scale or exponent entry that the streamer holds (R120): operand (0 A, 1 B), line, group, and its bits. -/
structure ScaleEntry where
  operand : Nat
  line : Nat
  group : Nat
  bits : Nat
  deriving DecidableEq, Repr

/-- A streaming load that a core has written (R160): its key, the exponents of its columns by group, and what its elements count (R129). -/
structure LoadInfo where
  key : Nat
  exps : List (List Nat)
  counts : Counts
  /-- The bank that the load was written to, by macro. -/
  banks : List (Nat × Nat) := []
  deriving DecidableEq, Repr

/-- What a core holds for the deck tile in progress (R145). -/
structure CoreRun where
  flight : Option Nat := none
  drawer : Nat := 0
  tile : Nat := 0
  gen : Nat := 0
  /-- Position in the walk of level-1 tiles, and of level-0 tiles in it. -/
  l1 : Nat := 0
  l0 : Nat := 0
  /-- The staged rows of the level-0 tile: activation codes over the core's K range, and group exponents where the load path made them. -/
  staged : List (List Int) := []
  aexp : List (List Nat) := []
  /-- (macro, vector) pairs driven in this level-0 tile. -/
  driven : List (Nat × Nat) := []
  /-- Chunks being summed, at row × COLS + column; chunks that wait for promotion (R109, R115). -/
  openChunks : Table OpenChunk := []
  queue : List Chunk := []
  /-- Wide totals of the block in progress, at row × COLS + column; rows present; rows forwarded down the chain (R113, R114). -/
  totals : Table Nat := []
  present : List Nat := []
  forwarded : List Nat := []
  sat : Bool := false
  needResume : Bool := false
  /-- Rows on the link from the previous chain core. -/
  link : List LinkRow := []
  scales : List ScaleEntry := []
  drains : List DrainBlock := []
  walked : Bool := false
  /-- Streaming loads (R160): the key of the active load, of the load written ahead, of the load whose writes run and of the load whose swap
  waits; the macros that have still to end the write or the swap; what the written loads carry. -/
  loadActive : Option Nat := none
  loadReady : Option Nat := none
  loadWriting : Option Nat := none
  loadSwap : Option Nat := none
  loadLeft : List Nat := []
  loads : List LoadInfo := []
  /-- The operation that the loads belong to. -/
  loadOf : Option Nat := none
  /-- Planes and full-scale cycles of the tile, and of the tile before (R383). -/
  planes : Nat := 0
  full : Nat := 0
  prevPlanes : Nat := 0
  prevFull : Nat := 0
  /-- The value of L0_ONLY that waits for the tile to end (R162). -/
  l0Want : Option Nat := none
  deriving DecidableEq, Repr

/-! ### Operations and descriptors in flight -/

/-- A hand of deck tiles (R170). -/
structure Hand where
  first : Nat
  count : Nat
  deriving DecidableEq, Repr

/-- A write that a drain makes for its tile: consecutive codes of one width from a bit of a byte address (R74, R154). -/
structure TileWrite where
  addr : Nat
  bitOff : Nat
  width : Nat
  codes : List Nat
  deriving DecidableEq, Repr

/-- What one drawer of an operation does (R173 to R180). -/
structure Drawer where
  cur : Option Hand := none
  next : Option Hand := none
  /-- Position in the current hand of the tile in progress or next to claim; for dealt tiles the count finished (R182). -/
  pos : Nat := 0
  /-- The drawer's last draw returned the empty marker. -/
  empty : Bool := false
  /-- Where a steal search found a tile, and where its last claim lost (R178): entries beyond the own one, 0 NEXT or 1 CUR hand, tile. -/
  target : Option (Nat × Nat × Nat) := none
  lostAt : Option (Nat × Nat × Nat) := none
  stopped : Bool := false
  /-- The claimed tile: its index, generation, and whether it was stolen. -/
  tile : Option (Nat × Nat × Bool) := none
  started : Bool := false
  abandoned : Bool := false
  /-- The next attempt of a dealt tile is a re-run (R182). -/
  again : Bool := false
  /-- The tile this drawer finished last. -/
  last : Option Nat := none
  /-- The halo fetch of the claimed tile is done; input rows fetched from a slot: image, first row, rows, data (R153). -/
  haloDone : Bool := false
  halo : Option (Nat × Nat × Nat × List Byte) := none
  /-- Counts, statistics (core, tap, index, entry) and writes of the attempt in progress. -/
  counts : Counts := {}
  stats : List (Nat × Nat × Nat × Nat) := []
  writes : List TileWrite := []
  satTile : Bool := false
  /-- SOURCE 1 entries of zero that the attempt has met (R124), by address. -/
  zeros : List Nat := []
  /-- Its cores have written their partial lines since their last tile (R127). -/
  flushed : Bool := false
  deriving DecidableEq, Repr

/-- A dispatched descriptor that has no completion record yet (R311). -/
structure Flight where
  ctx : Nat
  /-- The descriptor's count in its ring, its 64 bytes, and the context entry under which it was fetched (R25). -/
  n : Nat
  desc : Nat
  entry : Nat
  partition : Nat
  /-- The order of dispatch over all contexts (R317). -/
  seq : Nat
  status : Nat := 0
  /-- All its work has ended: its record may be written. -/
  ready : Bool := false
  /-- Armed for a course boundary (R64, R133, R290). -/
  armed : Option Nat := none
  counts : Counts := {}
  result : Nat := 0
  /-- Macros not yet done (WEIGHT_WRITE, BANK_SWAP), as core × 68 + macro, and those that failed. -/
  left : List Nat := []
  failed : List Nat := []
  /-- MATRIX: its operation record, whether its tiles have been released, the sampled DECK_POLICY (R184), the deck's OPSEQ, its drawers,
  how many dealt tiles are finished, the re-run generation (R182), the activation tables it read (R156), and the SOURCE 1 entries of zero
  it has counted (R124). -/
  opRec : Nat := 0
  released : Bool := false
  policy : Nat := 0
  opSeq : Nat := 0
  drawers : Table Drawer := []
  finished : Nat := 0
  rerun : Nat := 0
  tables : Table Nat := []
  zeroEntries : List Nat := []
  /-- The per-core statistics stores: running maxima of the finished tiles by core, and in a core by tap and index (R127). -/
  stats : Table (List ((Nat × Nat) × Nat)) := []
  energy : Nat := 0
  /-- Its context stops in abort mode: it ends at its safe points with ABORTED (R329). -/
  aborting : Bool := false
  /-- A COPY that waits for host data: 1 for the first read, 2 for the second (R328). -/
  host : Nat := 0
  /-- The plan item that dispatched it (R267), and whether its record is written even on success. -/
  item : Option Nat := none
  report : Bool := true
  /-- The course that its record names, where it is not the course of writing (R287). -/
  stamp : Option Nat := none
  deriving DecidableEq, Repr

/-- A fetched descriptor that is not dispatched: count, 64 bytes, entry, and whether its header failed validation (R309, R310). -/
structure Fetched where
  n : Nat
  desc : Nat
  entry : Nat
  bad : Bool
  deriving DecidableEq, Repr

/-- What the express path holds for one context beside its registers. -/
structure CtxRun where
  queue : List Fetched := []
  shadowOut : Bool := false
  again : Bool := false
  startDoorbell : Bool := false
  shadowRetry : Bool := false
  /-- A fetch outstanding: first descriptor, count, and the entry it reads under (R25, R308). -/
  fetchOut : Option (Nat × Nat × Nat) := none
  fetchRetry : Bool := false
  /-- Moderation: time of the last message, and the vectors held back (R322). -/
  lastMsg : Option Nat := none
  heldMsg : List Nat := []
  evicting : Bool := false
  lastUse : Nat := 0
  /-- The stop is in abort mode (R328, R329), or no host access may be made for it (R332, R333). -/
  abort : Bool := false
  silent : Bool := false
  deriving DecidableEq, Repr

/-- The host interface and the express path. -/
structure HostS where
  /-- Write stages and read latches per requester (R11): register offset and value. -/
  wstage : Table (Nat × Nat) := []
  rlatch : Table (Nat × Nat) := []
  /-- Staged context entries (requester × 8 + word) and commit status (RESULT, CONTEXT) per requester (R303). -/
  ctxStage : Table Nat := []
  commitStatus : Table (Nat × Nat) := []
  ctx : Table CtxRun := []
  flights : Table Flight := []
  nextId : Nat := 0
  /-- The context dispatched last in each class (R326). -/
  lastDispatch : Table Nat := []
  /-- Functions in D3hot (R333). -/
  d3 : List Nat := []
  /-- MSI-X tables written by the host, at function × 2048 × 16 + byte offset / 4 (R293). -/
  msixTable : Table Nat := []
  /-- log2 of the BAR4 window of each function; 30 where none is listed (R293). -/
  bar4Log2 : Table Nat := []
  deriving DecidableEq, Repr

/-! ### Banks, walls -/

/-- A borrowed bank of an array (R204): spare index, bank served, phase 0 copy, 1 redirected, 2 copy back; due at the next boundary. -/
structure Borrow where
  spare : Nat
  bank : Nat
  phase : Nat
  due : Bool
  /-- Why it was borrowed: 0 slice, 1 column repair, 2 bank repair, 3 test engine. -/
  why : Nat
  column : Nat := 0
  passes : Nat := 0
  fails : Nat := 0
  deriving DecidableEq, Repr

/-- Arbitration and error state of the banked arrays, keyed by array × 256 + bank (arrays 0 to 255 scratchpads, 256 to 259 pools, 260 deck home). -/
structure PoolS where
  lastGrant : Table Nat := []
  /-- Banks in the second cycle of a 2-cycle access, and the master whose access it is. -/
  busy : Table Nat := []
  /-- Corrections waiting to be written back: key, row, granule of the word. -/
  writeBack : List (Nat × Nat × Nat) := []
  /-- The last correction of each bank's word: key × 4096 + row, column (R198). -/
  lastCorr : Table Nat := []
  borrows : Table Borrow := []
  /-- Lasting column faults that wait for a spare bank: array, bank, column (R202). -/
  faults : List (Nat × Nat × Nat) := []
  /-- Spare banks that have failed: array × 4 + spare (R202, R203, R210). -/
  retired : List Nat := []
  /-- Vaults a wipe has failed on (R206). -/
  noSecret : List Nat := []
  deriving DecidableEq, Repr

/-- An assembly slot (R223). -/
structure Slot where
  wall : Nat
  stripe : Nat
  opened : Nat
  bytes : Table Nat
  flights : List Nat
  deriving DecidableEq, Repr

/-- What waits for a stripe lock (R222): a write of bytes of the stripe for a descriptor, the closing of its slot, the write back of a reconstructed
unit on a local stack, or a rebuild step. -/
inductive WallWork where
  | write (flight : Option Nat) (bytes : Table Nat)
  | close
  | reconstruct (l : Nat)
  | rebuild
  deriving DecidableEq, Repr

/-- A request that waits for the lock of a stripe of a wall. -/
structure WallReq where
  wall : Nat
  stripe : Nat
  work : WallWork
  deriving DecidableEq, Repr

/-- The stack traffic engines. -/
structure WallS where
  slots : List Slot := []
  /-- Requests that wait for a stripe lock, in arrival order (R222). -/
  waiting : List WallReq := []
  /-- Stack units whose last read was corrected: stack × 2^27 + unit, granule × 128 + bit (R226). -/
  lastCorr : Table Nat := []
  /-- Stacks that left service after a link fault and have not trained since (R228). -/
  dropped : List Nat := []
  /-- Units that reads cannot correct (R227): stack × 2^27 + unit, and the granule that fails. -/
  badUnits : Table Nat := []
  /-- Halves of stacks whose contents were lost when the stack was powered down (R215): 2 × stack + half, and the seed of the free values there. -/
  lost : Table Nat := []
  deriving DecidableEq, Repr

/-! ### The fabric, time and courses -/

/-- The time servo (R242 to R246). -/
structure FabS where
  /-- Nanoseconds of correction that slewing has still to make, and the slewing budget in 10^-6 ns. -/
  slew : Int := 0
  slewFrac : Nat := 0
  /-- Holdover: nanoseconds since it began, and TIME_ERR at its start. -/
  holdNs : Nat := 0
  holdErr : Nat := 0
  /-- The first lock after reset has set fabric time (R243). -/
  stepped : Bool := false
  /-- The priority vector of the latest Announce message of each port, as one number. -/
  announce : Table Nat := []
  deriving DecidableEq, Repr

/-- An operation entry that has started (R257, R267): its tag, the course of its start and its deadline course, the receive it waits for (entry index
and course), its descriptor, the in-flight descriptor it became, and the fabric time of its completion. -/
structure PlanOp where
  key : Nat
  tag : Nat
  course : Nat
  due : Nat
  report : Bool
  waits : Option (Nat × Nat) := none
  desc : Nat
  flight : Option Nat := none
  done : Option Nat := none
  failed : Bool := false
  /-- The status of the access where its descriptor could not be read. -/
  refused : Nat := 0
  /-- The plan whose entry it is: how many plans had become active before (R261). -/
  gen : Nat := 0
  deriving DecidableEq, Repr

/-- What has become of a slot to send (R268 to R271): it is due, was sent, was acknowledged, has failed, was sent again, or has failed for good. -/
inductive SlotPhase where
  | due | sent | acked | failed | resent | lasting
  deriving DecidableEq, Repr

/-- A send slot of a course (R258): its entry as one number, the course, its phase, the deadline of its acknowledgement, when that came. -/
structure SendRun where
  entry : Nat
  course : Nat
  phase : SlotPhase := .due
  deadline : Nat := 0
  ackAt : Nat := 0
  gen : Nat := 0
  deriving DecidableEq, Repr

/-- A receive of a course (R259, R269): entry index, the entry as one number, course, segments that arrived good, whether one failed PCRC, whether LAST
has arrived, bytes received, whether it is complete or has failed for good. -/
structure RecvRun where
  ix : Nat
  entry : Nat
  course : Nat
  got : List Nat := []
  badSeg : Bool := false
  last : Option Nat := none
  bytes : Nat := 0
  done : Bool := false
  lasting : Bool := false
  /-- The segments are those of the re-send. -/
  repair : Bool := false
  deriving DecidableEq, Repr

/-- What the keystone or successor holds of a module (R273, R274): the course of its latest status word, missing words in a row, its REQ_LEN,
CKPT_DONE, READY_COURSE if it is ready, LEAVE_COURSE if it leaves, PLAN_ID. -/
structure Report where
  course : Nat
  missed : Nat := 0
  req : Nat
  ckpt : Nat
  ready : Option Nat
  leaving : Option Nat
  planId : Nat
  deriving DecidableEq, Repr

/-- A join that is armed (R287). -/
structure Join where
  flight : Nat
  ctx : Nat
  jobId : Nat
  module : Nat
  vector : Nat
  resuming : Bool
  anchorCourse : Nat
  anchorTime : Nat
  len : Nat
  course : Nat
  deriving DecidableEq, Repr

/-- Courses, plans and the job, beside the CRS_ registers. Plans are images held as one little-endian number (R253). -/
structure CrsS where
  active : Option Nat := none
  staged : Option Nat := none
  /-- PHASE (R261), and the course at which the active plan became active. -/
  phase : Nat := 0
  since : Nat := 0
  /-- How many plans have become active before the active one; and the cycle and PHASE by which courses from a given one on have their plan position, the
latest first, as (first course, cycle, PHASE) (R261, R281). -/
  gen : Nat := 0
  phases : List (Nat × Nat × Nat) := []
  /-- The counter snapshot of the latest boundary (R28). -/
  snapshot : RegFile := []
  join : Option Join := none
  /-- Armed leaves: the descriptor, if any, and the course, 0 for the next boundary (R288, R331). -/
  leaves : List (Option Nat × Nat) := []
  joinCtx : Nat := 0
  vector : Nat := 0
  ops : List PlanOp := []
  sends : List SendRun := []
  recvs : List RecvRun := []
  nextOp : Nat := 0
  /-- The lasting failure that the next status word reports: FAIL_CAUSE, FAIL_SLOT, FAIL_PEER (R271). -/
  lasting : Option (Nat × Nat × Nat) := none
  /-- A lasting failure was detected: from the next boundary no plan items start (R271). `halted` once that boundary has passed. -/
  detected : Bool := false
  halted : Bool := false
  /-- Slack and length of the course before (R276), and the course whose status word was sent last. -/
  prevLen : Nat := 16
  statusSent : Option Nat := none
  /-- A SUSPEND word has arrived; the suspension takes effect at the next boundary (R282), with the CAUSE_MODULE it named. -/
  suspendDue : Option Nat := none
  /-- COMMITTED_POS, and RESUME_COURSE once announced (R266, R283). -/
  committedPos : Nat := 0
  resume : Option Nat := none
  /-- Restored at this checkpoint course (R289). -/
  ready : Option Nat := none
  /-- The last courses in which a keystone word arrived, and courses without one in a row; whether one has arrived in the present course; the module that
acts as keystone, from which alone words are then accepted (R275). -/
  wordIn : Bool := false
  missedWords : Nat := 0
  acting : Option Nat := none
  /-- The keystone's side (R273 to R283): reports by module, the largest REQ_LEN of each recent course, the course of the last change applied, LIMITED, whether it
suspends the job and for which module, and modules already counted as lost. -/
  reports : Table Report := []
  /-- The reports held when the course before ended, and the module in whose words a fault was seen in the present course; the course whose keystone
word was sent last. -/
  seen : Table Report := []
  fault : Option Nat := none
  wordSent : Option Nat := none
  reqs : List (Nat × Nat) := []
  lastChange : Nat := 0
  suspends : Option Nat := none
  lostModules : List Nat := []
  deriving DecidableEq, Repr

/-! ### Power -/

/-- The power governor beside the PWR_ registers. Energies are in units of 10^-7 µJ / 780², those of R390's coefficients times mV². -/
structure PwrS where
  /-- F of the last closed window, as a quotient (R391). -/
  fNum : Nat := 1
  fDen : Nat := 1
  /-- Fractions of a µJ carried by context and by partition (R391). -/
  ctxFrac : Table Nat := []
  partFrac : Table Int := []
  /-- The point that a die in transition moves to (R371), and dies whose clock period is doubled (R381). -/
  target : Table Nat := []
  stretched : List Nat := []
  /-- Windows in a row since the last action of the firmware loop: with the duty below 12/16 (R376), and quiet as R377 asks. -/
  low : Nat := 0
  quiet : Nat := 0
  /-- Windows in a row at duty 2/16 (R379). -/
  floor : Nat := 0
  /-- By die: windows in a row with more than 1 % of the cycles stretched, and with fewer than 0.1 %; dies whose CAP_OP was lowered for that (R382). -/
  droopy : Table Nat := []
  calm : Table Nat := []
  droopDies : List Nat := []
  /-- PARK_UNIT in force, as its code, and ROTATE is read as it stands (R378). -/
  unit : Nat := 2
  /-- Something throttled the module in the present course (R389). -/
  throttled : Bool := false
  /-- By die: runs of the thermal loop since a reading was last warmer than HYST_C below its limit (R385). -/
  cool : Table Nat := []
  /-- Sensors at or above their trip limit at their last read, and the hotspot and I/O-die readings: hotspots 0 to 15, I/O die 16 and 17, stacks from 32,
  cores from 256 (R387). -/
  hot : List Nat := []
  /-- The latest hotspot readings (R384). -/
  spots : Table Nat := []
  deriving DecidableEq, Repr

/-! ### Health, sideband -/

/-- The provenance record of a bank of a physical macro (R403): the image's device address, SRC_FMT, SLOT, ROWS and CRC-32C. -/
structure Provenance where
  addr : Nat
  fmt : Nat
  slot : Nat
  rows : Nat
  crc : Nat
  deriving DecidableEq, Repr

/-- A macro slice of a core (R401) beside HLT_CORE_SLICE: the logical macro sliced, the failing rows it found, whether a lasting fault was
found, which banks of the copy back must restart, and whether Handover or Restore is due at the next boundary. -/
structure Slice where
  macroIx : Nat
  spare : Nat
  phase : Nat
  targeted : Bool := false
  failed : Bool := false
  /-- Banks whose copy lost a row that could not be rebuilt (R403). -/
  lost : List Nat := []
  /-- The slice skips Test and Copy back and ends with the repair (R406). -/
  repairOnly : Bool := false
  /-- The slice is the borrow of a test-engine command (R415). -/
  te : Bool := false
  restart : List Nat := []
  due : Bool := false
  deriving DecidableEq, Repr

/-- The envelope of a pair of partition and WSID (R413): blocks learned, bounds, whether a learned block was non-finite or all-zero, and for
the last blocks whether each was an outlier and the core that drained it. -/
structure Envelope where
  part : Nat
  wsid : Nat
  learned : Nat := 0
  lo : Option Int := none
  hi : Option Int := none
  nonFinite : Bool := false
  zero : Bool := false
  recent : List (Bool × Nat) := []
  deriving DecidableEq, Repr

/-- What the health processor holds beside the HLT_ registers. -/
structure HltS where
  /-- Time of the last transient record of each unit (R398). -/
  lastTransient : Table Nat := []
  /-- Macros whose duty is on another physical macro: core × 68 + macro, physical macro (R401). -/
  duty : Table Nat := []
  /-- Provenance by physical bank: `rowKey` of its row 0. -/
  provenance : Table Provenance := []
  slices : Table Slice := []
  /-- Targeted slices asked for, as core × 68 + macro (R400). -/
  targeted : List Nat := []
  /-- Those of them that a lasting fault asked for: the slice ends with the repair (R406). -/
  mustRepair : List Nat := []
  /-- Parts of the neighbour links that have failed: die and part, and how many paths have been rerouted (R22). -/
  linkFails : List (Nat × LinkPart) := []
  reroutes : Nat := 0
  /-- The next physical macro of each core in slice order (R400). -/
  nextMacro : Table Nat := []
  /-- Envelopes, least recently used first. -/
  envelopes : List Envelope := []
  /-- Physical macros and cores that repair has retired: never used again (R406). -/
  retiredMacros : List Nat := []
  retiredCores : List Nat := []
  /-- Repair-table changes due at the next boundary: logical core, new physical core (R407). -/
  coreMoves : List (Nat × Nat) := []
  /-- Known-sum checks: macros whose pattern's first check mismatched, and the course of the last match (core × 68 + macro, pattern). -/
  ksRepeat : List Nat := []
  ksLast : Table Nat := []
  /-- The test-engine command in progress: its command word (R415). -/
  te : Option Nat := none
  /-- A range or known-sum alarm that a joined job must treat as a lasting failure (R414). -/
  alarmJob : Bool := false
  deriving DecidableEq, Repr

/-- The internal rails (R428): off, coming up, or good. -/
inductive Rails where
  | off | rising | good
  deriving DecidableEq, Repr

/-- Pins, the power stage, the auxiliary domain and the sideband endpoint (R424 to R441). -/
structure ModS where
  /-- 3V3_AUX within limits, for at least 10 ms; PWR_EN; VIN within its limits; PERST_N low. -/
  auxOn : Bool := true
  pwrEn : Bool := true
  vinOk : Bool := true
  perst : Bool := true
  rails : Rails := .good
  /-- FAULT_N and THERMTRIP_N asserted. -/
  fault : Bool := false
  thermTrip : Bool := false
  /-- The last power-loss cause, as the codes of sensor 33 (R439). -/
  cause : Nat := 1
  /-- The straps ADDR1 and ADDR0 as one number, sampled at the rise of 3V3_AUX, and the EID (R436, R437). -/
  straps : Nat := 3
  eid : Nat := 0
  /-- Helam processor 5 has reached ON in this boot: it serves the endpoint (R437). -/
  served : Bool := false
  /-- VIN in 0.1 V and VIN current in 0.01 A as last reported (R432). -/
  vin : Nat := 0
  current : Nat := 0
  /-- The readings of the sensors at their last refresh, by sensor ID, and the threshold level (0 normal, 1 warning, 2 critical) of each. -/
  readings : Table Nat := []
  levels : Table Nat := []
  /-- The receiver of platform events, and the events that wait (R441): sensor (256 for a failure record) and data. -/
  receiver : Option Nat := none
  events : List (Nat × List Byte) := []
  /-- Configuration requests are answered: the loader runs or the ROM has entered RECOVERY (R292, R336). -/
  configOpen : Bool := false
  deriving DecidableEq, Repr

/-! ### Fuse requests, flash, firmware -/

/-- A fuse request at Helam processor 0 (R29, R357): the life-cycle bit of a state, the REVOKED bit of a slot, SVN bits up to a count, the pending candidates,
a root slot with its hash. -/
inductive Burn where
  | lifeCycle (target : Nat)
  | revoke (slot : Nat)
  | svn (n : Nat)
  | candidates
  | rootSlot (slot hash : Nat)
  /-- The identity scalar and public key (R363). -/
  | identity
  deriving DecidableEq, Repr

/-- What a directory entry of the side flash names (R337). -/
inductive Region3 where
  | loader | identity | config
  deriving DecidableEq, Repr

/-- An entry of the flash directory: offset, size, type (R337). -/
def flashEntry (off size type : Nat) : Nat := off + size * 2 ^ 32 + type * 2 ^ 64

/-- The directory as a module comes: MAGIC, version, an entry per region. The rule gives the identity region no type: it is 0 here (log entry 275: DESIGN
CHOICE). -/
def flashDirectory : Nat :=
  0x44465950 + 1 * 2 ^ 32 + flashEntry 0x1000 0x1FF000 1 * 2 ^ 512 + flashEntry 0x200000 0x40000 0 * 2 ^ 640 + flashEntry 0x240000 0x40000 3 * 2 ^ 768

/-- The side flash (R337), 64 MiB: the 192 bytes of its directory as one little-endian number, and what is written of each region, from its first byte on; every
other byte is erased. It has no volatile state. -/
structure Flash where
  dir : Nat := flashDirectory
  loader : List Byte := []
  identity : List Byte := []
  config : List Byte := []
  deriving DecidableEq, Repr

/-- Firmware and boot beside the FW_ and LCS_ registers. -/
structure FwS where
  /-- The image store (R342), the loader that runs, and whether a fetch has been retried (R344). -/
  image : List Byte := []
  loader : List Byte := []
  retried : Bool := false
  /-- A loader fetched in RECOVERY waits for its verification. -/
  fetched : Option (List Byte) := none
  /-- The RWL fields that RELEASE sampled (R345). -/
  sampled : RegFile := []
  /-- Fuse requests, in arrival order, each with whether the mailbox waits for it (R29). -/
  burns : List (Burn × Bool) := []
  /-- The fetch in progress (R344, R361): host address and bytes. -/
  fetch : Option (Nat × Nat) := none
  /-- A SERVICE command that waits for Helam processor 0 (R352): its bytes, and whether the flash takes a write. -/
  service : Option (List Byte × Bool) := none
  /-- The 2 MiB RAM of each processor as its start leaves it: what lies at which address, over zeros (R348, R351). -/
  ram : Table (List (Nat × List Byte)) := []
  /-- The instant at which the firmware of each processor reloaded its watchdog last (R350). -/
  reload : Table Nat := []
  /-- Times of the watchdog expiries of each processor in the last 60 s (R353). -/
  expiries : Table (List Nat) := []
  /-- Open SPDM sessions: partition (4 for the whole package) and the die whose vault holds its keys; IDE streams programmed: partition and stream (R367). -/
  sessions : List (Nat × Nat) := []
  streams : List (Nat × Nat) := []
  deriving DecidableEq, Repr

/-! ### The whole -/

/-- The set-up that the lock freezes (R6, R301): the lock and every RWL field. -/
structure Setup where
  locked : Bool := false
  rwl : RegFile := []
  /-- The LAYOUT that RELEASE sampled, in effect until the next fundamental reset (R345). -/
  layout : Option Nat := none
  deriving DecidableEq, Repr

/-- What few commands change: the set-up under its lock and the fuse block (R29, R301). -/
structure Fixed where
  setup : Setup := {}
  fuse : Fuses := {}
  deriving DecidableEq, Repr

/-- Everything else the block holds. -/
structure Dev where
  regs : RegFile := []
  /-- Boot has started the macros and banks: the STATE and STARTS of one that are not listed are those of a unit that is ON, once. -/
  macrosUp : Bool := false
  /-- Bytes of SRAM by device address (R186) and of the stacks by `stackKey`; unlisted bytes read zero (log entry 3: DESIGN CHOICE, unsafe). -/
  mem : List Host.Cell := []
  /-- Cells of the macro banks: key `rowKey`; unlisted rows are zero. -/
  cells : Table Nat := []
  out : List Out := []
  /-- How many free values have been drawn. -/
  free : Nat := 0
  /-- Nanoseconds of the free-running time that timers and moderation use. -/
  now : Nat := 0
  /-- Start attempts of switchable functions by state word (R32): 1 the first start has failed, 2 the second is under way, 3 it has failed. -/
  starts : Table Nat := []
  host : HostS := {}
  cim : Table MacroRun := []
  core : Table CoreRun := []
  pool : PoolS := {}
  wall : WallS := {}
  hlt : HltS := {}
  fab : FabS := {}
  crs : CrsS := {}
  pwr : PwrS := {}
  aux : ModS := {}
  flash : Flash := {}
  fw : FwS := {}
  deriving DecidableEq, Repr

/-- The state of the block: the fixed part, the device, and the commands waiting, first in, first out. -/
structure State where
  z : Fixed := {}
  d : Dev := {}
  pending : List Instr := []
  deriving DecidableEq, Repr

/-- The state right after a fundamental reset, with main power up and PERST_N still low: every register at its reset value (R7), the fuse shadow latched,
stage ROM, no memory byte or cell listed, the auxiliary domain as it starts, no command waiting. The part is as manufactured, its fuses and flash those
that the configuration leaves open (log entry 61: DESIGN CHOICE, safe). -/
def State.reset : State where
  z := { fuse := Fuses.part }
  d := { regs := RegFile.puts [] (Fuses.part.shadow ++ nonceFields 0), free := 4,
         flash := { loader := Config.flashLoader, identity := Config.flashIdentity, config := Config.flashConfig } }
  pending := []

end Sys2Proof.Machine
end

