-- ==== Sys2Proof/Machine/Ops.lean ====
section
/-! DEFINITION. Sys2Proof/Machine/Ops.lean: the named operations over registers, memory and the parts that several commands share. -/
namespace Sys2Proof.Machine

open Sys2Proof

/-! ### Registers -/

/-- Whether a field lies in the state word of a logical macro or of one of its banks (R36, R66). -/
def Fld.ofMacro (f : Fld) : Bool :=
  decide (0x4000000 ≤ f.off) && decide (f.off < 0x4400000) && decide (f.off % 0x4000 < 0x2000) &&
    (f.off % 0x80 = 0 || f.off % 0x80 = 0x18 || f.off % 0x80 = 0x1C)

/-- The value of a field that has not been set: its reset value, or what the start of all macros at boot has left (R7, R210). -/
def Dev.unset (d : Dev) (f : Fld) : Nat :=
  if d.macrosUp && f.ofMacro then (if f.lo = 2 then 2 else if f.lo = 16 then 1 else f.rst) else f.rst

/-- The value of a field. -/
def Dev.get (d : Dev) (f : Fld) : Nat := tget (d.unset f) d.regs f.key
def Dev.put (d : Dev) (f : Fld) (v : Nat) : Dev := { d with regs := RegFile.put d.regs f v }

/-- Whether a one-bit field is set. -/
def Dev.bit (d : Dev) (f : Fld) : Bool := d.get f = 1

/-- Whether a register access of a requester is decoded: BAR0 of a function in D3hot is not (R333), and in RECOVERY only HOST_ID and the
mailbox are (R336). -/
def Dev.barOpen (d : Dev) (q : Requester) : Bool :=
  match q with
  | .fn f => !d.host.d3.contains f.val && d.get F.FW_MBOX_STATUS_STAGE ≠ 0xB
  | _ => true

/-- Add to a counter: 64 bits, wrapping modulo 2^64 (R28). -/
def Dev.bump (d : Dev) (f : Fld) (n : Nat) : Dev := d.put f (d.get f + n)

/-- Set several fields in order. -/
def Dev.puts (d : Dev) (l : List (Fld × Nat)) : Dev := l.foldl (fun d p => d.put p.1 p.2) d

/-- The value of a field that the set-up lock freezes (R301). -/
def Fixed.get (z : Fixed) (f : Fld) : Nat := RegFile.get z.setup.rwl f

/-- The block takes a command's effect on everything but the queue and the fixed part. -/
def State.upd (s : State) (f : Fixed → Dev → Dev) : Host.Outcome State Fault Refusal := .next { s with d := f s.z s.d }

def Dev.emit (d : Dev) (o : Out) : Dev := { d with out := d.out ++ [o] }

/-- What hardware tells a Helam processor. -/
def Dev.tell (d : Dev) (proc cause arg : Nat) : Dev := d.emit (.told proc cause arg)

/-! ### Completion status codes (R320) -/

def stOK : Nat := 0x00
def stInvalidField : Nat := 0x01
def stAddressFault : Nat := 0x02
def stPartitionDenied : Nat := 0x03
def stVaultDenied : Nat := 0x04
def stCoreUnavailable : Nat := 0x05
def stMacroOff : Nat := 0x06
def stWeightSetMismatch : Nat := 0x07
def stBankActive : Nat := 0x08
def stBankInvalid : Nat := 0x09
def stNotStreaming : Nat := 0x0A
def stWriteFault : Nat := 0x0B
def stAborted : Nat := 0x0C
def stSpillMismatch : Nat := 0x0D
def stDeckBusy : Nat := 0x0E
def stSramUncorrectable : Nat := 0x0F
def stMemUncorrectable : Nat := 0x10
def stMemUnavailable : Nat := 0x11
def stCoursePassed : Nat := 0x12
def stJobSuspended : Nat := 0x13
def stNotJoined : Nat := 0x14
def stJobBusy : Nat := 0x15
def stTimeNotLocked : Nat := 0x16
def stPortDown : Nat := 0x17
def stNoPlan : Nat := 0x18
def stPlanCrc : Nat := 0x19
def stJobMismatch : Nat := 0x1A
def stOverlap : Nat := 0x1B
def stDeadline : Nat := 0x1C
def stSwapCourse : Nat := 0x1D
def stStagedBusy : Nat := 0x1E
def stPlanAddress : Nat := 0x1F
def stCancelled : Nat := 0x20
def stContextStopped : Nat := 0x21
def stHostDmaFault : Nat := 0x22
def stJobFailed : Nat := 0x23

/-! ### State words of switchable functions (R30, R36) -/

/-- The offset of the state word of a switchable function. -/
def unitWord : SwUnit → Nat
  | .core n => 0x2000008 + 0x1000 * n.val
  | .cim n m => 0x4000000 + 0x4000 * n.val + 0x80 * m.val
  | .bank n m b => 0x4000018 + 0x4000 * n.val + 0x80 * m.val + 4 * b.val
  | .ctx c => 0x1100000 + 0x40 * c.val
  | .part p => 0x100 + 8 * p.val
  | .port p => 0x2800000 + 0x1000 * p.val
  | .stack s => 0x6000000 + 0x1000 * s.val
  | .proc k => 0x101000 + 0x100 * k.val

/-- The reset value of EN in a state word (R37, R66, R215, R239, R298, R329, R349). -/
def unitEnReset : SwUnit → Nat
  | .cim _ m => if m.val < 64 then 1 else 0
  | .bank _ _ _ => 1
  | .port _ => 1
  | .stack _ => 1
  | _ => 0

/-! Fields of a state word by the word's offset (R36). -/
def swEN (u : SwUnit) : Fld := ⟨unitWord u, 0, 1, unitEnReset u⟩
def swSTATE (w : Nat) : Fld := ⟨w, 2, 2, 0⟩
def swPENDING (w : Nat) : Fld := ⟨w, 4, 1, 0⟩
def swHELD (w : Nat) : Fld := ⟨w, 5, 1, 0⟩
def swFAULT (w : Nat) : Fld := ⟨w, 6, 1, 0⟩
def swCAUSE (w : Nat) : Fld := ⟨w, 8, 3, 0⟩
def swSTARTS (w : Nat) : Fld := ⟨w, 16, 16, 0⟩

/-- STATE codes (R30). -/
def codeOFF : Nat := 0
def codeSTARTING : Nat := 1
def codeON : Nat := 2
def codeSTOPPING : Nat := 3

def Dev.stateOf (d : Dev) (u : SwUnit) : Nat := d.get (swSTATE (unitWord u))
def Dev.isOn (d : Dev) (u : SwUnit) : Bool := d.stateOf u = codeON

/-- The state codes of units named by plain numbers. -/
def Dev.coreState (d : Dev) (n : Nat) : Nat := d.get (F.CORE_STATE_STATE n)
def Dev.coreOn (d : Dev) (n : Nat) : Bool := d.coreState n = codeON
def Dev.ctxState (d : Dev) (c : Nat) : Nat := d.get (F.CTX_STATE_STATE c)
def Dev.partState (d : Dev) (p : Nat) : Nat := d.get (F.HOST_PART_STATE_STATE p)

/-- The macro index at which the registers of macro index `m` of core `n` live: indices 64 to 67 of a spare that serves a logical macro
read as that logical macro's (R12, and the two indices of *CIM_ registers*). -/
def Dev.cimHome (d : Dev) (n m : Nat) : Nat :=
  if 64 ≤ m ∧ d.get (F.CIM_MAP_ASSIGNED n m) = 1 then d.get (F.CIM_MAP_LOGICAL n m) else m

/-! ### Partitions (R297, R299) -/

/-- The layout in effect: the one that RELEASE has sampled (R345). -/
def Fixed.layout (z : Fixed) : Nat := z.setup.layout.getD (z.get F.HOST_PART_CFG_LAYOUT)

/-- Partitions of the layout. -/
def Fixed.parts (z : Fixed) : Nat := match z.layout with
  | 0 => 1
  | 1 => 2
  | _ => 4

def Fixed.partOfDie (z : Fixed) (die : Nat) : Nat := match z.layout with
  | 0 => 0
  | 1 => die / 2
  | _ => die

def Fixed.partOfCore (z : Fixed) (n : Nat) : Nat := z.partOfDie (n / 64)

/-- First context and count of contexts of function `f` after the limits of R299. -/
def Fixed.ctxRange (z : Fixed) (f : Nat) : Nat × Nat :=
  let first := z.get (F.HOST_FN_CFG_CTX_FIRST f)
  let cnt := min (z.get (F.HOST_FN_CFG_CTX_COUNT f)) (if f = 0 then 16384 else 256)
  (first, min cnt (16384 - first))

def Fixed.inRange (z : Fixed) (f c : Nat) : Bool :=
  let r := z.ctxRange f
  decide (r.1 ≤ c) && decide (c < r.1 + r.2)

/-- The function that owns a context: the lowest-numbered one whose range holds it (R299). -/
def Fixed.owner (z : Fixed) (c : Nat) : Option Nat := (List.range 64).find? fun f => z.inRange f c

def Fixed.partOfFn (z : Fixed) (f : Nat) : Nat := z.get (F.HOST_FN_CFG_PARTITION f)

/-! ### Memory -/

/-- A byte of the store: unlisted bytes read zero. -/
def Memory.read : List Host.Cell → Nat → Byte
  | [], _ => 0
  | (a', v) :: t, a => if a' = a then v else Memory.read t a

/-- Put a listed, non-zero byte in its place. -/
def Memory.insert : List Host.Cell → Nat → Byte → List Host.Cell
  | [], a, v => [(a, v)]
  | (a', v') :: t, a, v =>
    if a < a' then (a, v) :: (a', v') :: t
    else if a = a' then (a, v) :: t
    else (a', v') :: Memory.insert t a v

/-- Take the entry of an address out. -/
def Memory.erase : List Host.Cell → Nat → List Host.Cell
  | [], _ => []
  | (a', v') :: t, a => if a' = a then t else (a', v') :: Memory.erase t a

/-- Write a byte, keeping the canonical form: a zero byte is not listed. -/
def Memory.write (m : List Host.Cell) (a : Nat) (v : Byte) : List Host.Cell :=
  if v = 0 then Memory.erase m a else Memory.insert m a v

/-- Write consecutive bytes in increasing address order. -/
def Memory.writes : List Host.Cell → Nat → List Byte → List Host.Cell
  | m, _, [] => m
  | m, a, v :: t => Memory.writes (Memory.write m a v) (a + 1) t

/-- Drop every byte of an address range, which then reads zero. -/
def Memory.clear (m : List Host.Cell) (a n : Nat) : List Host.Cell :=
  m.filter fun c => c.1 < a || a + n ≤ c.1

/-- The canonical form: addresses strictly rising above `lo`, no zero byte listed. -/
def Memory.wfFrom : Nat → List Host.Cell → Bool
  | _, [] => true
  | lo, (a, v) :: t => decide (lo ≤ a) && decide (v ≠ 0) && Memory.wfFrom (a + 1) t

/-- The canonical form of memory. -/
def Memory.wf (m : List Host.Cell) : Bool := Memory.wfFrom 0 m

/-! ### The address map (R168, R186, R218) -/

def scratchBase : Nat := 0x00E100000000
def poolBase : Nat := 0x00E000000000
def deckHomeBase : Nat := 0x00F000000000
def vaultOff : Nat := 0x02F00000
def assemblyOff : Nat := 0x02E40000

def scratchAddr (n off : Nat) : Nat := scratchBase + n * 0x80000 + off
def poolAddr (die off : Nat) : Nat := poolBase + die * 0x4000000 + off

def Dev.wallParity (d : Dev) (w : Nat) : Bool := d.bit (F.MEM_WALL_CFG_PARITY_EFF w)

/-- Size of a wall in bytes (R217). -/
def Dev.wallSize (d : Dev) (w : Nat) : Nat := if d.wallParity w then 264 * 2 ^ 30 else 288 * 2 ^ 30

/-- What a device address names. -/
inductive Region where
  | wall (w off : Nat)
  | scratch (n off : Nat)
  | pool (die off : Nat)
  | deckHome (off : Nat)
  | unmapped
  deriving DecidableEq, Repr

/-- The region and offset of a device address (R168, R186, R218). -/
def Dev.region (d : Dev) (a : Nat) : Region :=
  let z0 := d.wallSize 0
  if a < z0 then .wall 0 a
  else if a < z0 + d.wallSize 1 then .wall 1 (a - z0)
  else if a < poolBase then .unmapped
  else if a < poolBase + 4 * 0x4000000 then
    if (a - poolBase) % 0x4000000 < 0x3000000 then .pool ((a - poolBase) / 0x4000000) ((a - poolBase) % 0x4000000) else .unmapped
  else if a < scratchBase then .unmapped
  else if a < scratchBase + 256 * 0x80000 then .scratch ((a - scratchBase) / 0x80000) ((a - scratchBase) % 0x80000)
  else if a < deckHomeBase then .unmapped
  else if a < deckHomeBase + 0x400000 then .deckHome (a - deckHomeBase)
  else .unmapped

/-- The partition that owns a device address (R191, R220, R297). -/
def ownerOf (z : Fixed) (d : Dev) (a : Nat) : Option Nat :=
  match d.region a with
  | .unmapped => none
  | .scratch n _ => some (z.partOfCore n)
  | .pool die _ => some (z.partOfDie die)
  | .deckHome off => some (z.partOfDie (off / 0x100000))
  | .wall w off =>
    match z.layout with
    | 0 => some 0
    | 1 => some w
    | _ => some (2 * w + (if off < d.wallSize w / 2 then 0 else 1))

/-- Where a byte of a wall stands (R219): stripe, data unit, local index of its stack, byte in the unit. -/
def wallPlace (parity : Bool) (off : Nat) : Nat × Nat × Nat × Nat :=
  if parity then
    let S := off / 2816
    let u := off % 2816 / 256
    (S, u, (S % 12 + 1 + u) % 12, off % 256)
  else (off / 3072, off % 3072 / 256, off % 3072 / 256, off % 256)

/-- The key in the store of byte `b` of unit `S` of stack `s`. -/
def stackKey (s S b : Nat) : Nat := 2 ^ 48 + s * 2 ^ 36 + 256 * S + b

/-- The local index of the stack of a wall that is missing for stripe `S`: lost, or not yet rebuilt there (R229, R230). -/
def Dev.missing (d : Dev) (w S : Nat) : Option Nat :=
  let m := d.get (F.MEM_WALL_STATUS_MISSING w)
  if m = 0xF then none
  else if d.get (F.MEM_WALL_STATUS_STATE w) = 3 ∧ S < d.get (F.MEM_WALL_REBUILD_STRIPE w) then none
  else some m

/-- What an unwritten byte of a stack reads as: zero, or a free value where the contents were lost (R215). -/
def Dev.lostByte (d : Dev) (s S b : Nat) : Byte :=
  match tfind d.wall.lost (2 * s + b01 (decide (50331648 ≤ S))) with
  | some seed => Config.lostByte seed (256 * S + b)
  | none => 0

/-- Byte `b` of unit `S` of stack `s`: the store holds how it differs from what an unwritten byte reads as. -/
def Dev.cell (d : Dev) (s S b : Nat) : Byte := Memory.read d.mem (stackKey s S b) ^^^ d.lostByte s S b

/-- The store with byte `b` of unit `S` of stack `s` written. -/
def Dev.cellMem (d : Dev) (m : List Host.Cell) (s S b : Nat) (v : Byte) : List Host.Cell := Memory.write m (stackKey s S b) (v ^^^ d.lostByte s S b)

/-- XOR of the bytes `b` of the units of stripe `S` of wall `w` on every local stack but `skip` (R227). -/
def Dev.xorOthers (d : Dev) (w S b skip : Nat) : Byte :=
  (List.range 12).foldl (fun a l => if l = skip then a else a ^^^ d.cell (12 * w + l) S b) 0

/-- A byte of a unit as the wall serves it: reconstructed where its stack is missing (R229). -/
def Dev.unitByte (d : Dev) (w S l b : Nat) : Byte :=
  if d.missing w S = some l ∧ d.wallParity w then d.xorOthers w S b l
  else d.cell (12 * w + l) S b

/-- The open assembly slot of a stripe (R223). -/
def Dev.slotOf (d : Dev) (w S : Nat) : Option Slot := d.wall.slots.find? fun t => t.wall = w ∧ t.stripe = S

/-- The byte a read of a device address returns once the slot of its stripe, if one is open, has been written (R223). -/
def Dev.peek (d : Dev) (a : Nat) : Byte :=
  match d.region a with
  | .wall w off =>
    let p := d.wallParity w
    let (S, _, l, b) := wallPlace p off
    let r := off % (if p then 2816 else 3072)
    match (d.slotOf w S).bind fun t => tfind t.bytes r with
    | some v => BitVec.ofNat 8 v
    | none => d.unitByte w S l b
  | .unmapped => 0
  | _ => Memory.read d.mem a

def Dev.peeks (d : Dev) (a n : Nat) : List Byte := (List.range n).map fun i => d.peek (a + i)

/-- A little-endian number of `n` bytes at a device address (R4). -/
def Dev.peekNat (d : Dev) (a n : Nat) : Nat := leNat (d.peeks a n)

def Dev.bumps (d : Dev) (l : List Fld) : Dev := l.foldl (fun d f => d.bump f 1) d

/-! ### Places in the banked arrays (R187) -/

def arrBanks (arr : Nat) : Nat := if arr < 256 then 16 else if arr < 260 then 192 else 64
def arrWord (arr : Nat) : Nat := if arr < 256 then 32 else 64
def arrBase (arr : Nat) : Nat := if arr < 256 then scratchAddr arr 0 else if arr < 260 then poolAddr (arr - 256) 0 else deckHomeBase
def arrDie (arr : Nat) : Nat := if arr < 256 then arr / 64 else if arr < 260 then arr - 256 else 4

/-- Device address of the word of a row of a bank. -/
def wordAddr (arr bank row : Nat) : Nat := arrBase arr + (row * arrBanks arr + bank) * arrWord arr

/-- Array, bank and row of a device address in a banked array. -/
def Dev.wordPlace (d : Dev) (a : Nat) : Option (Nat × Nat × Nat) :=
  match d.region a with
  | .scratch n off => some (n, off / 32 % 16, off / 32 / 16)
  | .pool die off => some (256 + die, off / 64 % 192, off / 64 / 192)
  | .deckHome off => some (260, off / 64 % 64, off / 64 / 64)
  | _ => none

/-- The key of a bank, and that of a word of it. -/
def bankKey (arr bank : Nat) : Nat := arr * 256 + bank
def wordKey (arr bank row : Nat) : Nat := bankKey arr bank * 4096 + row

/-- Whether the word of a row of the bank with this key has no byte in a range of device addresses. -/
def outOfWord (key row a n : Nat) : Bool :=
  let w := wordAddr (key / 256) (key % 256) row
  decide (a + n ≤ w) || decide (w + arrWord (key / 256) ≤ a)

/-- Bytes are written to the words of the banked arrays: the write-backs that wait for those words are dropped (R198). -/
def Dev.bankWrite (d : Dev) (a : Nat) (bytes : List Byte) : Dev :=
  { d with mem := Memory.writes d.mem a bytes
           pool := { d.pool with writeBack := d.pool.writeBack.filter fun x => outOfWord x.1 x.2.1 a bytes.length } }

/-- A write that covers only part of a granule of the word of an address (R188). -/
def Dev.bumpRmw (d : Dev) (a : Nat) : Dev :=
  match d.region a with
  | .scratch n _ => d.bump (F.POOL_SP_CNT_RMW n) 1
  | .pool die _ => d.bump (F.POOL_DP_CNT_RMW die) 1
  | _ => d

/-- The partial-granule writes of consecutive bytes: an access for each word, of which only the first and the last can cover part of a granule (R188). -/
def Dev.countRmw (d : Dev) (a n : Nat) : Dev :=
  let W := match d.region a with
    | .scratch _ _ => 32
    | _ => 64
  if n = 0 then d
  else if a / W = (a + n - 1) / W then (if a % 8 = 0 ∧ (a + n) % 8 = 0 then d else d.bumpRmw a)
  else
    let d := if a % 8 = 0 then d else d.bumpRmw a
    if (a + n) % 8 = 0 then d else d.bumpRmw (a + n - 1)

/-! ### Macro cells -/

/-- Key of row `r` of a bank of a physical macro of a physical core. -/
def rowKey (die pc pm bank r : Nat) : Nat := (((die * 66 + pc) * 68 + pm) * 2 + bank) * 512 + r

/-- The physical macro that holds the duty of macro index `m` of core `n`: during a slice it is the borrowed spare (R401). -/
def Dev.dutyMacro (d : Dev) (n m : Nat) : Nat := (tfind d.hlt.duty (n * 68 + m)).getD (d.get (F.CIM_MAP_PHYSICAL n m))

/-- The key of row `r` of the bank that serves macro index `m` of logical core `n` (R18, R19, R401). -/
def Dev.rowKeyOf (d : Dev) (n m bank r : Nat) : Nat :=
  rowKey (n / 64) (d.get (F.CORE_ID_PHYSICAL n)) (d.dutyMacro n m) bank r

/-- The cells of a row; unlisted rows are zero. -/
def Dev.row (d : Dev) (n m bank r : Nat) : Nat := tget 0 d.cells (d.rowKeyOf n m bank r)

def setCells (t : Table Nat) (k v : Nat) : Table Nat := if v = 0 then terase t k else tset t k v

/-- Even parity of the low `n` bits of a number. -/
def evenParity : Nat → Nat → Nat
  | 0, _ => 0
  | n + 1, w => (w % 2 + evenParity n (w / 2)) % 2

/-- A row image with the two parity cells of R58. -/
def withParity (img : Nat) : Nat :=
  img % 2 ^ 256 + evenParity 128 img * 2 ^ 256 + evenParity 128 (img / 2 ^ 128) * 2 ^ 257

def Dev.setRow (d : Dev) (n m bank r v : Nat) : Dev := { d with cells := setCells d.cells (d.rowKeyOf n m bank r) v }

/-- Clear every row of a bank (R67). -/
def Dev.clearBank (d : Dev) (n m bank : Nat) : Dev :=
  let lo := d.rowKeyOf n m bank 0
  { d with cells := d.cells.filter fun p => p.1 < lo || lo + 512 ≤ p.1 }

/-! ### Bank fields of a macro, by bank -/

def cimVALID (n m bank : Nat) : Fld := if bank = 0 then F.CIM_BANK_VALID_A n m else F.CIM_BANK_VALID_B n m
def cimSLOT (n m bank : Nat) : Fld := if bank = 0 then F.CIM_BANK_SLOT_A n m else F.CIM_BANK_SLOT_B n m
def cimWSID (n m bank : Nat) : Fld := if bank = 0 then F.CIM_WSID_WSID_A n m else F.CIM_WSID_WSID_B n m
def bankWord (n m bank : Nat) : Nat := 0x4000018 + 0x4000 * n + 0x80 * m + 4 * bank

/-- Set VALID of a bank and the core's summary bits (R56, CIM_CORE_VALIDMAP: a macro's bit follows its active bank). -/
def Dev.syncMaps (d : Dev) (n m : Nat) : Dev :=
  if m < 64 then
    let act := d.get (F.CIM_BANK_ACTIVE n m)
    let val := d.get (cimVALID n m act)
    let bm := d.get (F.CIM_CORE_BANKMAP_ACTIVE n)
    let vm := d.get (F.CIM_CORE_VALIDMAP_ACTIVE_VALID n)
    let setBit := fun (w v : Nat) => w / 2 ^ (m + 1) * 2 ^ (m + 1) + v * 2 ^ m + w % 2 ^ m
    (d.put (F.CIM_CORE_BANKMAP_ACTIVE n) (setBit bm act)).put (F.CIM_CORE_VALIDMAP_ACTIVE_VALID n) (setBit vm val)
  else d

/-- Set VALID, WSID and SLOT of a bank. -/
def Dev.setBank (d : Dev) (n m bank valid wsid slot : Nat) : Dev :=
  (((d.put (cimVALID n m bank) valid).put (cimWSID n m bank) wsid).put (cimSLOT n m bank) slot).syncMaps n m

/-! ### In-flight descriptors -/

def Dev.ctxRun (d : Dev) (c : Nat) : CtxRun := tget {} d.host.ctx c
def Dev.modCtx (d : Dev) (c : Nat) (f : CtxRun → CtxRun) : Dev :=
  { d with host := { d.host with ctx := tmod {} d.host.ctx c f } }
def Dev.flight (d : Dev) (i : Nat) : Option Flight := tfind d.host.flights i
def Dev.setFlight (d : Dev) (i : Nat) (f : Flight) : Dev :=
  { d with host := { d.host with flights := tset d.host.flights i f } }
/-- Change an in-flight descriptor; nothing happens where it is none. -/
def Dev.modFlight (d : Dev) (i : Nat) (g : Flight → Flight) : Dev :=
  match d.flight i with
  | some f => d.setFlight i (g f)
  | none => d

/-- End the work of a descriptor with a status, once: the first status set stays (R164). -/
def Flight.finish (f : Flight) (st : Nat) : Flight :=
  if f.ready then f else { f with ready := true, status := if f.status = stOK then st else f.status, armed := none }

def Dev.coreRun (d : Dev) (n : Nat) : CoreRun := tget {} d.core n
def Dev.modCore (d : Dev) (n : Nat) (f : CoreRun → CoreRun) : Dev := { d with core := tmod {} d.core n f }
def Dev.macroRun (d : Dev) (n m : Nat) : MacroRun := tget {} d.cim (n * 68 + m)
def Dev.modMacro (d : Dev) (n m : Nat) (f : MacroRun → MacroRun) : Dev := { d with cim := tmod {} d.cim (n * 68 + m) f }

/-- Draw a free value (log entry 2: DESIGN CHOICE, safe). -/
def Dev.drawFree (d : Dev) : BitVec 64 × Dev := (Config.freeWord d.free, { d with free := d.free + 1 })

/-- Bytes whose values the spec leaves open: `n` free bytes. -/
def Dev.freeBytes (d : Dev) (n : Nat) : List Byte × Dev :=
  ((List.range n).map fun i => (Config.freeWord (d.free + i / 8)).extractLsb' (8 * (i % 8)) 8,
    { d with free := d.free + ceilDiv n 8 })

end Sys2Proof.Machine
end

