-- ==== Sys2Proof/Machine/Records.lean ====
section
/-! DEFINITION. Sys2Proof/Machine/Records.lean: device events on vector 0 of the physical function, the log ring, failure records, platform events. -/
namespace Sys2Proof.Machine

open Sys2Proof

/-- Whether a feature is on (R347). -/
def Dev.feature (d : Dev) (b : Nat) : Bool := bitsAt (d.get F.FW_FEAT_ON) b 1 = 1

/-- Send an MSI-X message (R296, HOST_CNT_MSIX). -/
def Dev.sendMsix (d : Dev) (f v : Nat) : Dev := (d.emit (.msix f v)).bump F.HOST_CNT_MSIX 1

/-- Set a bit of FW_EVENT, and raise vector 0 of the physical function unless it is masked (R296). -/
def Dev.fwEvent (d : Dev) (f : Fld) : Dev :=
  let d := d.put f 1
  if bitsAt (d.get F.FW_EVENT_MASK_MASK) f.lo 1 = 1 then d else d.sendMsix 0 0

/-- Set a bit of HLT_EVENT, and raise vector 0 of the physical function unless it is masked (R296). -/
def Dev.hltEvent (d : Dev) (f : Fld) : Dev :=
  let d := d.put f 1
  if bitsAt (d.get F.HLT_EVENT_MASK_MASK) f.lo 1 = 1 then d else d.sendMsix 0 0

def Dev.course (d : Dev) : Nat := d.get F.CRS_COURSE_COURSE

/-- The 32 bytes of a log record (R354). -/
def logBytes (time seq proc level code arg0 arg1 : Nat) : List Byte :=
  leBytes 32 (time % 2 ^ 64 + seq % 2 ^ 32 * 2 ^ 64 + (proc % 8 + level % 8 * 8) * 2 ^ 96 + code % 2 ^ 16 * 2 ^ 112
    + arg0 % 2 ^ 64 * 2 ^ 128 + arg1 % 2 ^ 64 * 2 ^ 192)

/-- Whether a record of a level is written to the log ring (R354). -/
def Dev.logWritten (d : Dev) (level : Nat) : Bool :=
  d.feature 0 && d.bit F.FW_LOG_CTRL_EN && decide (level ≤ d.get F.FW_LOG_CTRL_MIN_LEVEL) && (level != 4 || d.feature 1)

/-- Commit a log record: the next SEQ, written to its slot of the host ring (R354). -/
def Dev.logCommit (d : Dev) (proc level code arg0 arg1 : Nat) : Dev :=
  if d.logWritten level then
    let seq := d.get F.FW_LOG_SEQ + 1
    let l2 := max 8 (min 16 (d.get F.FW_LOG_CTRL_LOG2))
    (d.put F.FW_LOG_SEQ seq).emit (.hostWrite 0 (d.get F.FW_LOG_BASE_BASE + 32 * (seq % 2 ^ l2))
      (logBytes (d.get F.FAB_TIME_TIME_NS) seq proc level code arg0 arg1))
  else d

/-- A platform event for the management controller (R441): up to 16 wait; a later state event of a sensor replaces the one that waits when
the queue is full, and any other is discarded and counted. -/
def Dev.platformEvent (d : Dev) (sensor : Nat) (data : List Byte) : Dev :=
  let q := d.aux.events
  if q.length < 16 then { d with aux := { d.aux with events := q ++ [(sensor, data)] } }
  else if sensor < 256 ∧ q.any (fun e => e.1 = sensor) then
    { d with aux := { d.aux with events := q.map fun e => if e.1 = sensor then (sensor, data) else e } }
  else d.bump F.HLT_CNT_FAIL_DROPPED 1

/-- The fields of a failure record beside the course (R397). -/
structure FailRec where
  unit : Nat
  cls : Nat
  source : Nat
  action : Nat
  die : Nat
  index : Nat
  sub : Nat := 0
  addr : Nat := 0
  bitNo : Nat := 0xFFFF
  logical : Nat := 0xFFFF
  expected : Nat := 0
  observed : Nat := 0
  deriving DecidableEq, Repr

/-- The 32 bytes of a failure record as one number (R397). -/
def FailRec.code (r : FailRec) (course : Nat) : Nat :=
  course % 2 ^ 64 + (r.unit % 16 + r.cls % 4 * 16) * 2 ^ 64 + (r.source % 16 + r.action % 16 * 16) * 2 ^ 72 + r.die % 8 * 2 ^ 80
    + r.index % 2 ^ 16 * 2 ^ 96 + r.sub % 2 ^ 16 * 2 ^ 112 + r.addr % 2 ^ 32 * 2 ^ 128 + r.bitNo % 2 ^ 16 * 2 ^ 160
    + r.logical % 2 ^ 16 * 2 ^ 176 + r.expected % 2 ^ 32 * 2 ^ 192 + r.observed % 2 ^ 32 * 2 ^ 224

/-- The unit a record is about, as one number. -/
def FailRec.unitKey (r : FailRec) : Nat := ((r.unit * 8 + r.die) * 65536 + r.index) * 65536 + r.sub

/-- CLASS codes of a failure record (R397). -/
def clsTransient : Nat := 1
def clsLasting : Nat := 2
def clsAlarm : Nat := 3

/-- Enter a record in the failure log, the ring of 64 that HLT_FAIL_DATA shows, or count it where the log is full (R398). -/
def Dev.failLogged (d : Dev) (code : Nat) : Dev :=
  let p := d.get F.HLT_FAIL_INDEX_PRODUCED
  if 64 < (p + 1 + 2 ^ 32 - d.get F.HLT_FAIL_INDEX_CONSUMED) % 2 ^ 32 then d.bump F.HLT_CNT_FAIL_DROPPED 1
  else (d.puts ((List.range 4).map fun j => (F.HLT_FAIL_DATA (p % 64) j, bitsAt code (64 * j) 64))).put F.HLT_FAIL_INDEX_PRODUCED (p + 1)

/-- Note when a transient of a unit was recorded. -/
def Dev.failTimed (d : Dev) (r : FailRec) : Dev :=
  if r.cls = clsTransient then { d with hlt := { d.hlt with lastTransient := tset d.hlt.lastTransient r.unitKey d.now } } else d

/-- Whether a transient of the unit was recorded within the last second (R398). -/
def Dev.failEarly (d : Dev) (r : FailRec) : Bool :=
  r.cls = clsTransient && (match tfind d.hlt.lastTransient r.unitKey with
    | some t => decide (d.now < t + 1000000000)
    | none => false)

/-- Commit the log record of a failure record: its event code and arguments are free values (log entry 4: DESIGN CHOICE, safe). -/
def Dev.failCommitted (d : Dev) : Dev :=
  { d with free := d.free + 3 }.logCommit 5 1 (0x9000 + (Config.freeWord d.free).toNat % 4096) (Config.freeWord (d.free + 1)).toNat
    (Config.freeWord (d.free + 2)).toNat

/-- EXPECTED and OBSERVED of a record (R397): a known-sum check and the test engine give them with the failure; what a march expected and found, and what
any other source enters there, are free values (log entry 278: DESIGN CHOICE, safe). -/
def Dev.failValues (d : Dev) (r : FailRec) : FailRec × Dev :=
  if r.source = 6 ∨ r.source = 0xA then (r, d)
  else ({ r with expected := (Config.freeWord d.free).toNat, observed := (Config.freeWord (d.free + 1)).toNat }, { d with free := d.free + 2 })

/-- Enter a failure record (R398) into the failure log, the log ring and the queue of platform events. -/
def Dev.failEntered (d : Dev) (r : FailRec) : Dev :=
  (((d.failTimed r).failLogged (r.code d.course)).failCommitted.platformEvent 256 (leBytes 32 (r.code d.course))).hltEvent F.HLT_EVENT_FAIL_RECORD

/-- Write a failure record (R398). A transient of a unit within a second of its last is only counted. -/
def Dev.failRec (d : Dev) (r : FailRec) : Dev :=
  if d.failEarly r then d else (d.failValues r).2.failEntered (d.failValues r).1

/-- Enter a soft repair in the fuse candidate list (R409): nothing is entered when the list is full or no repair fuse is free (R417). -/
def Dev.addCandidate (d : Dev) (code : Nat) : Dev :=
  if d.get F.FUSE_REPAIR_FREE = 0 then d else
  match (List.range 256).find? fun i => bitsAt (d.get (F.HLT_CAND_DATA i)) 7 1 = 0 with
  | none => d
  | some i =>
    ((d.put (F.HLT_CAND_DATA i) (code % 2 ^ 64 / 256 * 256 + 128 + code % 128)).put F.FUSE_REPAIR_CANDIDATES
      (d.get F.FUSE_REPAIR_CANDIDATES + 1)).hltEvent F.HLT_EVENT_CANDIDATE

end Sys2Proof.Machine
end

