-- ==== Sys2Proof/Machine/Stacks.lean ====
section
/-! DEFINITION. Sys2Proof/Machine/Stacks.lean: stores and reads of device memory: stripes, assembly slots and locks of the walls, and the checks of an access
(R186 to R191, R205, R219 to R231). -/
namespace Sys2Proof.Machine

open Sys2Proof

/-! ### Units -/

/-- Put one byte of a wall on its stacks with the parity that keeps the stripe consistent (R219, R224, R229, R230). -/
def Dev.pokeUnit (d : Dev) (w S u b : Nat) (v : Byte) : Dev :=
  if d.wallParity w then
    let p := S % 12
    let l := (p + 1 + u) % 12
    let old := d.unitByte w S l b
    let par := d.unitByte w S p b
    let gone := d.missing w S
    let m1 := if gone = some l then d.mem else d.cellMem d.mem (12 * w + l) S b v
    let m2 := if gone = some p then m1 else d.cellMem m1 (12 * w + p) S b (par ^^^ old ^^^ v)
    { d with mem := m2 }
  else { d with mem := d.cellMem d.mem (12 * w + u) S b v }

/-- Put the bytes of a slot on the stacks. -/
def Dev.pokeStripe (d : Dev) (w S : Nat) (bytes : Table Nat) : Dev :=
  bytes.foldl (fun d p => d.pokeUnit w S (p.1 / 256) (p.1 % 256) (BitVec.ofNat 8 p.2)) d

/-- The data units that a slot's bytes touch (R224). -/
def touchedUnits (bytes : Table Nat) : List Nat := (List.range 12).filter fun u => bytes.any fun p => p.1 / 256 = u

/-- The number of the unit of stripe `S` on local stack `l` of wall `w`, as a list of units that reads cannot correct names it. -/
def unitKey (w S l : Nat) : Nat := (12 * w + l) * 2 ^ 27 + S

/-- Units are written: each is counted, and a unit that reads could not correct is rewritten (R227). The list holds local stack and stripe. -/
def Dev.unitsWritten (d : Dev) (w : Nat) (us : List (Nat × Nat)) : Dev :=
  { d.bumps (us.map fun u => F.MEM_STACK_CNT_WRITE_UNITS (12 * w + u.1)) with
    wall := { d.wall with badUnits := d.wall.badUnits.filter fun x => !(us.any fun u => unitKey w u.2 u.1 = x.1) } }

/-- Whether reads cannot correct the unit of a stripe on local stack `l` (R227). -/
def Dev.unitBad (d : Dev) (w S l : Nat) : Bool := (tfind d.wall.badUnits (unitKey w S l)).isSome

/-- The units of a stripe on other local stacks than `l` that reads cannot correct (R227, R229). -/
def Dev.othersBad (d : Dev) (w S l : Nat) : List Nat := (List.range 12).filter fun k => k ≠ l && d.unitBad w S k

/-! ### Errors (R226, R227) -/

/-- Record an error of a stack: class 1 corrected, 2 transient, 3 lasting. -/
def Dev.stackError (d : Dev) (s S granule cls bitNo source : Nat) : Dev :=
  let d := d.puts [(F.MEM_STACK_ERR_UNIT s, S), (F.MEM_STACK_ERR_GRANULE s, granule), (F.MEM_STACK_ERR_CLASS s, cls),
    (F.MEM_STACK_ERR_BIT s, if cls = 1 then bitNo else 0), (F.MEM_STACK_ERR_SOURCE s, source), (F.MEM_STACK_ERR_VALID s, 1)]
  d.bump (if cls = 1 then F.MEM_STACK_CNT_CORRECTED s else if cls = 2 then F.MEM_STACK_CNT_TRANSIENT s else F.MEM_STACK_CNT_LASTING s) 1

/-- The failure record of a unit of a stack (R397). -/
def Dev.stackRecord (d : Dev) (s S cls source action bitNo : Nat) : Dev :=
  d.failRec { unit := 6, cls := cls, source := source, action := action, die := s / 6, index := s, sub := S % 32, addr := S, bitNo := bitNo }

/-- A read of a unit meets a lasting error: it is counted, and the health processor is told (R227). `source` is the SOURCE code of MEM_STACK_ERR. -/
def Dev.unitLasting (d : Dev) (s S granule source : Nat) : Dev :=
  ((d.stackError s S granule 3 0 source).tell 5 9 (unitKey 0 S s)).stackRecord s S clsLasting (if source = 2 then 5 else 4) 0 0xFFFF

/-- Units that reads cannot correct are read once more, and fail the same way (R227). -/
def Dev.badAgain (d : Dev) (w S source : Nat) (ls : List Nat) : Dev :=
  ls.foldl (fun d l => d.unitLasting (12 * w + l) S (tget 0 d.wall.badUnits (unitKey w S l)) source) d

/-- Descriptors whose writes are lost end with a status, if none has been set (R223, R231). -/
def Dev.taint (d : Dev) (fls : List Nat) (st : Nat) : Dev :=
  fls.foldl (fun d i => d.modFlight i fun f => { f with status := if f.status = stOK then st else f.status }) d

/-! ### Writes of stripes (R222 to R224) -/

/-- STATE codes of a wall. -/
def wallOff : Nat := 0
def wallNormal : Nat := 1
def wallDegraded : Nat := 2
def wallRebuilding : Nat := 3
def wallFailed : Nat := 4

def Dev.wallState (d : Dev) (w : Nat) : Nat := d.get (F.MEM_WALL_STATUS_STATE w)

/-- Whether a wall serves no access (R231). -/
def Dev.wallGone (d : Dev) (w : Nat) : Bool := d.wallState w = wallFailed || d.wallState w = wallOff

/-- The local stacks whose units a partial write of a stripe writes: those touched and the parity unit, without a missing one (R224, R229). -/
def Dev.partialUnits (d : Dev) (w S : Nat) (bytes : Table Nat) : List Nat :=
  (S % 12 :: (touchedUnits bytes).map fun u => (S % 12 + 1 + u) % 12).filter fun l => d.missing w S ≠ some l

/-- Those whose units it reads (R224, R229). -/
def Dev.partialReads (d : Dev) (w S : Nat) (bytes : Table Nat) : List Nat :=
  let ls := (touchedUnits bytes).map fun u => (S % 12 + 1 + u) % 12
  if d.missing w S = none ∨ ¬ (ls.any fun l => d.missing w S = some l) then
    (if d.missing w S = some (S % 12) then [] else d.partialUnits w S bytes)
  else (List.range 12).filter fun l => l ≠ S % 12 ∧ ¬ ls.contains l ∧ d.missing w S ≠ some l

/-- A partial write of a stripe (R224, R229): its units are read and written, and it is counted. -/
def Dev.partialWrite (d : Dev) (w S : Nat) (bytes : Table Nat) : Dev :=
  let e := d.bumps ((d.partialReads w S bytes).map fun l => F.MEM_STACK_CNT_READ_UNITS (12 * w + l))
  let e := e.unitsWritten w ((d.partialUnits w S bytes).map fun l => (l, S))
  (e.pokeStripe w S bytes).bump (F.MEM_WALL_CNT_PARTIAL w) 1

/-- A full-stripe write (R223, R229): all units but that of a lost stack are written, nothing is read; a stripe being rebuilt is written
on all 12 stacks (R230). -/
def Dev.fullStripeWrite (d : Dev) (w S : Nat) (bytes : Table Nat) : Dev :=
  let gone := if d.get (F.MEM_WALL_STATUS_STATE w) = 3 then none else d.missing w S
  let units := (List.range 12).filter fun l => gone ≠ some l
  let d := d.unitsWritten w (units.map fun l => (l, S))
  let d := d.pokeStripe w S bytes
  let d := match gone, d.missing w S with
    | none, some l =>
      { d with mem := (List.range 256).foldl (fun m b => d.cellMem m (12 * w + l) S b (d.xorOthers w S b l)) d.mem }
    | _, _ => d
  d.bump (F.MEM_WALL_CNT_FULL_STRIPE w) 1

/-- Take a slot out and write it: a full stripe when all its bytes are valid, else a partial write (R223). The bytes of a slot whose wall has failed are
lost (R231), and those of one whose partial write must read a unit that reads cannot correct (R227): the operations that wrote them end with the status. -/
def Dev.closeSlot (d : Dev) (t : Slot) : Dev :=
  let d := { d with wall := { d.wall with slots := d.wall.slots.filter fun x => !(x.wall = t.wall ∧ x.stripe = t.stripe) } }
  if d.wallGone t.wall then d.taint t.flights stMemUnavailable
  else if t.bytes.length = 2816 then d.fullStripeWrite t.wall t.stripe t.bytes
  else match (d.partialReads t.wall t.stripe t.bytes).filter fun l => d.unitBad t.wall t.stripe l with
    | [] => d.partialWrite t.wall t.stripe t.bytes
    | ls => ((d.badAgain t.wall t.stripe 0 ls).bump (F.MEM_WALL_CNT_UNCORRECTABLE t.wall) t.flights.length).taint t.flights stMemUncorrectable

/-- Whether a request waits for the lock of a stripe (R222). -/
def Dev.stripeWaits (d : Dev) (w S : Nat) : Bool := d.wall.waiting.any fun r => r.wall = w && r.stripe = S

/-- A request waits for the lock of a stripe, behind those that wait already (R222). -/
def Dev.await (d : Dev) (w S : Nat) (k : WallWork) : Dev :=
  if k = .close ∧ d.wall.waiting.contains ⟨w, S, k⟩ then d else { d with wall := { d.wall with waiting := d.wall.waiting ++ [⟨w, S, k⟩] } }

/-- A slot closes once the lock of its stripe is free: its bytes came before those that wait (R222, R237). -/
def Dev.askClose (d : Dev) (t : Slot) : Dev := if d.stripeWaits t.wall t.stripe then d.await t.wall t.stripe .close else d.closeSlot t

/-- The die whose assembly area holds the slot of a stripe: that of the stripe's home engine (R222, R223). -/
def homeDie (w S : Nat) : Nat := 2 * w + S % 2

/-- One request's bytes of one stripe of a parity wall (R223): a whole stripe is written at once, anything else enters the stripe's slot. Slots stand in the
order in which they opened. -/
def Dev.stripeWrite (d : Dev) (fl : Option Nat) (w S : Nat) (bytes : Table Nat) : Dev :=
  if bytes.length = 2816 then
    { d with wall := { d.wall with slots := d.wall.slots.filter fun x => !(x.wall = w ∧ x.stripe = S) } }.fullStripeWrite w S bytes
  else
    let mine := d.wall.slots.filter fun t => homeDie t.wall t.stripe = homeDie w S
    let (d, t) := match d.slotOf w S with
      | some t => (d, t)
      | none =>
        let d := if mine.length < 256 then d else
          match mine with
          | first :: _ => (d.closeSlot first).bump (F.MEM_WALL_CNT_ASM_EVICT first.wall) 1
          | [] => d
        (d, ⟨w, S, d.now, [], []⟩)
    let t := { t with bytes := bytes.foldl (fun b p => tset b p.1 p.2) t.bytes,
                      flights := match fl with
                        | some f => if t.flights.contains f then t.flights else t.flights ++ [f]
                        | none => t.flights }
    if t.bytes.length = 2816 then d.closeSlot t
    else if d.get F.MEM_ASM_CFG_TIMEOUT_NS = 0 then (d.closeSlot t).bump (F.MEM_WALL_CNT_ASM_TIMEOUT w) 1
    else { d with wall := { d.wall with slots :=
      if (d.slotOf w S).isSome then d.wall.slots.map fun x => if x.wall = w ∧ x.stripe = S then t else x else d.wall.slots ++ [t] } }

/-- A write of consecutive bytes that lie in one wall (R222, R223, R236): stripe by stripe, for a parity wall. The bytes of a stripe whose lock is held, or
that others wait for, wait in arrival order. -/
def Dev.wallWrite (d : Dev) (held : List Nat) (fl : Option Nat) (w off : Nat) (bytes : List Byte) : Dev :=
  let d := d.put F.MEM_CLEAR_CLEARED 0
  if d.wallParity w then
    let stripes := (List.range (ceilDiv (off % 2816 + bytes.length) 2816)).map fun i => off / 2816 + i
    stripes.foldl (fun d S =>
      let lo := max off (S * 2816)
      let hi := min (off + bytes.length) ((S + 1) * 2816)
      let part := (List.range (hi - lo)).map fun i => (lo - S * 2816 + i, (nth 0 bytes (lo - off + i)).toNat)
      if held.contains S || d.stripeWaits w S then d.await w S (.write fl part) else d.stripeWrite fl w S part) d
  else
    let d := d.unitsWritten w ((List.range (if bytes.length = 0 then 0 else ceilDiv (off % 256 + bytes.length) 256)).map fun i =>
      ((off / 256 + i) % 12, (off / 256 + i) / 12))
    (List.range bytes.length).foldl (fun d i =>
      let (S, u, _, b) := wallPlace false (off + i)
      d.pokeUnit w S u b (nth 0 bytes i)) d

/-- Stacks that are powered down lose what they hold: their bytes are free values, from a seed (R215). -/
def Dev.loseContents (d : Dev) (ss : List Nat) : Dev :=
  { d with mem := d.mem.filter fun c => decide (c.1 < 2 ^ 48) || !ss.contains ((c.1 - 2 ^ 48) / 2 ^ 36)
           wall := { d.wall with lost := (d.wall.lost.filter fun x => !ss.contains (x.1 / 2)) ++ ss.flatMap fun s => [(2 * s, d.free), (2 * s + 1, d.free)]
                                 badUnits := d.wall.badUnits.filter fun x => !ss.contains (x.1 / 2 ^ 27)
                                 lastCorr := d.wall.lastCorr.filter fun x => !ss.contains (x.1 / 2 ^ 27) }
           free := d.free + 1 }

/-- Halves of stacks that are ON are written with zeros, parity and check bits included, 2 × stack + half for each (R235, R236): every unit is counted. -/
def Dev.zeroHalves (d : Dev) (hs : List Nat) : Dev :=
  let on := hs.filter fun h => d.get (F.MEM_STACK_STATE_STATE (h / 2)) = codeON
  let half := fun (s S : Nat) => 2 * s + b01 (decide (50331648 ≤ S))
  on.foldl (fun d h => d.bump (F.MEM_STACK_CNT_WRITE_UNITS (h / 2)) 50331648)
    { d with mem := d.mem.filter fun c => decide (c.1 < 2 ^ 48) || !on.contains (half ((c.1 - 2 ^ 48) / 2 ^ 36) ((c.1 - 2 ^ 48) % 2 ^ 36 / 256))
             wall := { d.wall with lost := d.wall.lost.filter fun x => !on.contains x.1
                                   badUnits := d.wall.badUnits.filter fun x => !on.contains (half (x.1 / 2 ^ 27) (x.1 % 2 ^ 27)) } }

/-! ### Stores and reads -/

/-- Write consecutive bytes at a device address, on behalf of an in-flight descriptor if one is named; `held` names stripes of the first byte's wall whose
locks are held. -/
def Dev.storeHeld (d : Dev) (held : List Nat) (fl : Option Nat) (a : Nat) (bytes : List Byte) : Dev :=
  if bytes = [] then d else
  match d.region a with
  | .wall w off =>
    let room := d.wallSize w - off
    let d1 := d.wallWrite held fl w off (bytes.take room)
    match bytes.drop room with
    | [] => d1
    | rest => match d1.region (a + room) with
      | .wall w' off' => d1.wallWrite [] fl w' off' rest
      | _ => d1
  | .unmapped => d
  | _ => (d.bankWrite a bytes).countRmw a bytes.length

/-- Write consecutive bytes at a device address. -/
def Dev.store (d : Dev) (fl : Option Nat) (a : Nat) (bytes : List Byte) : Dev := d.storeHeld [] fl a bytes

/-- Write a little-endian number of `n` bytes. -/
def Dev.storeNat (d : Dev) (fl : Option Nat) (a n w : Nat) : Dev := d.store fl a (leBytes n w)

/-- Units of a stripe on local stacks are read (R221, R227, R229): a missing one is reconstructed from the other 11; a read of all data units has the
parity unit stand in for it. -/
def Dev.readUnits (d : Dev) (w S : Nat) (us : List Nat) : Dev :=
  let count := fun (d : Dev) (ls : List Nat) => d.bumps (ls.map fun l => F.MEM_STACK_CNT_READ_UNITS (12 * w + l))
  match us.find? fun l => d.missing w S = some l with
  | some l =>
    let others := (List.range 12).filter (· ≠ l)
    count (d.bump (F.MEM_WALL_CNT_RECON_READS w) 1) (if us.length = 11 then others else us.filter (· ≠ l) ++ others)
  | none => count d us

/-- What a read of a range does besides returning its bytes: slots of its stripes close as partial writes (R223), units read and
reconstructed reads are counted (R221, R229); a word or a unit has been read since its last correction (R198, R226). -/
def Dev.touch (d : Dev) (a n : Nat) : Dev :=
  match d.region a with
  | .wall w off =>
    if n = 0 then d else
    let p := d.wallParity w
    let W := if p then 2816 else 3072
    let units := (List.range (ceilDiv (off % 256 + n) 256)).map fun i => wallPlace p (off / 256 * 256 + 256 * i)
    ((List.range (ceilDiv (off % W + n) W)).map fun i => off / W + i).foldl (fun d S =>
      let us := (units.filter fun x => x.1 = S).map fun x => x.2.2.1
      let d := match d.slotOf w S with
        | some t => d.askClose t
        | none => d
      { d.readUnits w S us with
        wall := { d.wall with lastCorr := d.wall.lastCorr.filter fun x => !(us.any fun l => unitKey w S l = x.1) } }) d
  | .unmapped => d
  | _ => { d with pool := { d.pool with lastCorr := d.pool.lastCorr.filter fun x => outOfWord (x.1 / 4096) (x.1 % 4096) a n } }

/-! ### Checks of accesses -/

/-- The status an access to one device address ends with, 0 where it is accepted (R186, R190, R191, R205, R220, R223, R231). `part` is
the partition the requester acts for, `none` for the device itself. A scratchpad is reached by no master while its core is not ON. A pool that is
being cleared refuses everyone (R212, log entry 151: DESIGN CHOICE). The assembly area is the stack traffic engine's (R223). -/
def accessStatus (z : Fixed) (d : Dev) (part : Option Nat) (a : Nat) : Nat :=
  match d.region a with
  | .unmapped => stAddressFault
  | r =>
    if part.isSome ∧ ownerOf z d a ≠ part then stPartitionDenied
    else match r with
      | .pool die off =>
        if part.isSome ∧ vaultOff ≤ off then stVaultDenied
        else if d.bit (F.POOL_DP_STATUS_CLEARING die) then stPartitionDenied
        else if assemblyOff ≤ off ∧ off < vaultOff then stAddressFault
        else stOK
      | .scratch n _ => if d.coreOn n then stOK else stCoreUnavailable
      | .wall w _ => if d.wallGone w then stMemUnavailable else stOK
      | _ => stOK

/-- Count a refused access in the array that refused it (R191, R205, R220); Helam processor 0 is told of one of the vault or of the assembly area (R223). -/
def Dev.countDenied (d : Dev) (a : Nat) : Dev :=
  match d.region a with
  | .scratch n _ => d.bump (F.POOL_SP_CNT_DENIED n) 1
  | .pool die off => let d := d.bump (F.POOL_DP_CNT_DENIED die) 1
    if assemblyOff ≤ off then d.tell 0 5 a else d
  | .wall w off =>
    let (_, _, l, _) := wallPlace (d.wallParity w) off
    d.bump (F.MEM_STACK_CNT_DENIED (12 * w + l)) 1
  | _ => d

/-- Whether an address lies in an assembly area (R223). -/
def Dev.inAssembly (d : Dev) (a : Nat) : Bool :=
  match d.region a with
  | .pool _ off => decide (assemblyOff ≤ off) && decide (off < vaultOff)
  | _ => false

/-- Whether a bank or stack counts the refusal of an access to an address with a status. -/
def Dev.isDenied (d : Dev) (a st : Nat) : Bool :=
  st = stPartitionDenied || st = stVaultDenied || st = stCoreUnavailable || (st = stAddressFault && d.inAssembly a)

/-- Count an access that was refused with a status, where a bank or stack counts it. -/
def Dev.denied (d : Dev) (a st : Nat) : Dev := if d.isDenied a st then d.countDenied a else d

/-- What a read that fails on a unit which reads cannot correct leads to: the unit fails once more (R227). -/
def Dev.readBad (d : Dev) (a : Nat) : Dev :=
  match d.region a with
  | .wall w off =>
    let (S, _, l, _) := wallPlace (d.wallParity w) off
    if d.missing w S = some l then d.badAgain w S 1 (d.othersBad w S l) else d.badAgain w S 0 [l]
  | _ => d

/-- Count an access that ends an operation: in the array that refused it, or in the wall whose unit it could not read (R191, R205, R220, R227). -/
def Dev.countRefusal (d : Dev) (a st : Nat) : Dev :=
  if st = stMemUncorrectable then
    match d.region a with
    | .wall w _ => (d.readBad a).bump (F.MEM_WALL_CNT_UNCORRECTABLE w) 1
    | _ => d
  else d.denied a st

/-- The addresses at which a range is checked: its first byte and the first byte of each 256-byte unit it enters. Regions, ownership
and access rules are uniform in a unit. -/
def checkPoints (a n : Nat) : List Nat :=
  if n = 0 then [] else a :: ((List.range (ceilDiv (a % 256 + n) 256)).drop 1).map fun i => a / 256 * 256 + 256 * i

/-- The first refused byte of a range in increasing address order, and the status it gives. -/
def rangeStatus (z : Fixed) (d : Dev) (part : Option Nat) (a n : Nat) : Option (Nat × Nat) :=
  (checkPoints a n).findSome? fun x =>
    let st := accessStatus z d part x
    if st = stOK then none else some (x, st)

/-- The first byte of a range that lies in a unit which reads can neither correct nor reconstruct (R227, R229). -/
def Dev.badByte (d : Dev) (a n : Nat) : Option Nat :=
  if d.wall.badUnits = [] then none else
  (checkPoints a n).find? fun x => match d.region x with
    | .wall w off =>
      let (S, _, l, _) := wallPlace (d.wallParity w) off
      if d.missing w S = some l then d.othersBad w S l ≠ [] else d.unitBad w S l
    | _ => false

/-- The first byte of a range that cannot be read, and the status it gives. -/
def readStatus (z : Fixed) (d : Dev) (part : Option Nat) (a n : Nat) : Option (Nat × Nat) :=
  match rangeStatus z d part a n with
  | some r => some r
  | none => (d.badByte a n).map fun x => (x, stMemUncorrectable)

end Sys2Proof.Machine
end

