-- ==== Sys2Proof/Machine/Cim.lean ====
section
/-! DEFINITION. Sys2Proof/Machine/Cim.lean: the compute-in-memory macro: weight encodings, writes of banks, bank order and swaps, the bit-serial
arithmetic of a vector. -/
namespace Sys2Proof.Machine

open Sys2Proof

/-! ### Weights (R39 to R42, R69, R70) -/

/-- Slot width of a SLOT code (R39). -/
def slotWidth (code : Nat) : Nat := 2 ^ code

/-- The cells of a slot that holds a magnitude with a sign (R40). -/
def slotCells (w s : Nat) (neg : Bool) (a : Nat) : Nat := a * 2 ^ (w * s + if neg then 128 else 0)

/-- Element width in bits of a WEIGHT_WRITE source format; 0 where reserved (R69). ROWS counts as rows of 256 bits. -/
def srcBits (fmt : Nat) : Nat := match fmt with
  | 0 => 0
  | 1 => 1
  | 2 => 2
  | 3 => 4
  | 4 => 8
  | 5 => 16
  | 6 => 8
  | 7 => 4
  | 8 => 32
  | _ => 0

/-- Bytes of a row of a macro image (R69). -/
def srcRowBytes (fmt w : Nat) : Nat := if fmt = 0 then 32 else srcBits fmt * (128 / w) / 8

/-- Sign and magnitude of an element (R69): sign-magnitude zero with sign 1 is 0. -/
def srcElem (fmt raw : Nat) : Bool × Nat := match fmt with
  | 1 => (raw = 0, 1)
  | 6 => (raw / 128 = 1, raw % 128)
  | 7 => (raw / 8 = 1, raw % 8)
  | 8 => (raw / 2 ^ 31 = 1, raw % 2 ^ 16)
  | _ => let v := toSigned (srcBits fmt) raw
    (decide (v < 0), v.natAbs)

/-- Whether an element is a reserved encoding: SM16 with a non-zero bit in [30:16] (R70). -/
def srcReserved (fmt raw : Nat) : Bool := fmt = 8 && decide (bitsAt raw 16 15 ≠ 0)

/-- A row image from the bits of a source row, and how many of its elements were limited (R40, R69, R70). -/
def rowImage (fmt w raw : Nat) : Nat × Nat :=
  if fmt = 0 then (raw % 2 ^ 256, 0)
  else (List.range (128 / w)).foldl (fun p e =>
    let (neg, a) := srcElem fmt (bitsAt raw (srcBits fmt * e) (srcBits fmt))
    (p.1 + slotCells w e neg (min a (2 ^ w - 1)), p.2 + if 2 ^ w - 1 < a then 1 else 0)) (0, 0)

/-- Whether a source row holds a reserved encoding. -/
def rowReserved (fmt w raw : Nat) : Bool :=
  (List.range (128 / w)).any fun e => srcReserved fmt (bitsAt raw (srcBits fmt * e) (srcBits fmt))

/-! ### Signatures (R411) -/

/-- The contribution of one row to a signature: the sum over column pairs of (P − N) × (2j + 1). -/
def rowSignature (cells : Nat) : Int :=
  isum ((List.range 128).map fun j => ((bitsAt cells j 1 : Nat) - (bitsAt cells (128 + j) 1 : Nat) : Int) * (2 * j + 1))

/-- S_even (`odd = 0`) or S_odd of a list of 512 row images, modulo 2^32 (R411). -/
def signature (odd : Nat) (images : List Nat) : Nat :=
  ofSigned 32 (isum ((List.range images.length).map fun r => if r % 2 = odd then rowSignature (nth 0 images r) else 0))

def ksEven (n m bank : Nat) : Fld := if bank = 0 then F.HLT_KS_REF_A_EVEN n m else F.HLT_KS_REF_B_EVEN n m
def ksOdd (n m bank : Nat) : Fld := if bank = 0 then F.HLT_KS_REF_A_ODD n m else F.HLT_KS_REF_B_ODD n m

/-! ### States -/

def Dev.macroOn (d : Dev) (n m : Nat) : Bool := d.get (F.CIM_STATE_STATE n m) = codeON
def Dev.bankOn (d : Dev) (n m bank : Nat) : Bool := d.get (swSTATE (bankWord n m bank)) = codeON
def Dev.activeBank (d : Dev) (n m : Nat) : Nat := d.get (F.CIM_BANK_ACTIVE n m)

/-- Clear a bank (R67): its rows, VALID, WSID, SLOT, signatures (R411) and provenance record (R403). -/
def Dev.clearBankAll (d : Dev) (n m bank : Nat) : Dev :=
  let d := (d.clearBank n m bank).setBank n m bank 0 0 0
  let d := (d.put (ksEven n m bank) 0).put (ksOdd n m bank) 0
  { d with hlt := { d.hlt with provenance := terase d.hlt.provenance (d.rowKeyOf n m bank 0) } }

/-! ### Slices and writes meet (R402) -/

/-- Release the slice of a core: the spare is unborrowed and the slice words read none. -/
def Dev.releaseSlice (d : Dev) (n : Nat) : Dev :=
  match tfind d.hlt.slices n with
  | none => d
  | some sl =>
    let d := d.puts [(F.CIM_MAP_BORROWED n sl.spare, 0), (F.HLT_CORE_SLICE_PHASE n, 0), (F.HLT_CORE_SLICE_TARGETED n, 0)]
    { d with hlt := { d.hlt with slices := terase d.hlt.slices n } }

/-- A write to a bank of a macro begins while a slice of the macro is in progress: in Copy, and while the Handover is due, the slice is abandoned;
in Copy back the copy of that bank restarts (R402, log entry 40: DESIGN CHOICE, unsafe). -/
def Dev.sliceMeetsWrite (d : Dev) (n m bank : Nat) : Dev :=
  match tfind d.hlt.slices n with
  | some sl =>
    if sl.macroIx ≠ m then d
    else if sl.phase ≤ 2 then (d.releaseSlice n).bump F.HLT_CNT_SLICE_ABANDONED 1
    else if sl.phase = 4 then
      { d with hlt := { d.hlt with slices := tset d.hlt.slices n { sl with restart := bank :: sl.restart, due := false } } }
    else d
  | none => d

/-- Ask for a targeted slice of a macro (R400). -/
def Dev.askSlice (d : Dev) (n m : Nat) : Dev :=
  if d.hlt.targeted.contains (n * 68 + m) then d
  else { d with hlt := { d.hlt with targeted := d.hlt.targeted ++ [n * 68 + m] } }

/-- Ask for a targeted slice that ends with the repair of a lasting fault (R406). -/
def Dev.askRepair (d : Dev) (n m : Nat) : Dev :=
  let d := d.askSlice n m
  { d with hlt := { d.hlt with mustRepair := if d.hlt.mustRepair.contains (n * 68 + m) then d.hlt.mustRepair
      else d.hlt.mustRepair ++ [n * 68 + m] } }

/-! ### Writes of banks (R54 to R59, R63, R65) -/

/-- The write becomes the macro's: its first row attempt marks the bank not VALID, with WSID 0 and the write's SLOT (R56). -/
def Dev.startWrite (d : Dev) (n m : Nat) (j : WriteJob) : Dev :=
  let d := d.sliceMeetsWrite n m j.bank
  let d := d.setBank n m j.bank 0 0 j.slot
  let d := d.puts [(F.CIM_BANK_WRITING n m, 1), (F.CIM_BANK_WRITE_BANK n m, j.bank)]
  d.modMacro n m fun r => { r with write := some j }

/-- Whether a write must wait for a streaming operation that holds the macro (R165): a descriptor's write, not the operation's own. -/
def Dev.streamHeld (d : Dev) (n m : Nat) (src : WriteSrc) : Bool :=
  match src with
  | .desc _ => (d.macroRun n m).order.any fun i => match i with
    | .op fl => ((d.flight fl).map fun f => decide (fld f.opRec 2 0 1 = 1)).getD false
    | .swap _ _ _ => false
  | _ => false

/-- Start a write, or let it wait behind the one in progress (R63) or behind a streaming operation (R165). -/
def Dev.queueWrite (d : Dev) (n m : Nat) (j : WriteJob) : Dev :=
  if (d.macroRun n m).write.isSome || d.streamHeld n m j.src then d.modMacro n m fun r => { r with waiting := r.waiting ++ [j] }
  else d.startWrite n m j

/-- RESULT of a WEIGHT_WRITE (R321): macros with a failed row, and the lowest of them. -/
def writeResult (failed : List Nat) : Nat :=
  match failed with
  | [] => 0xFFFF * 65536
  | x :: t =>
    let lo := t.foldl min x
    failed.length + lo / 68 * 65536 + lo % 68 * 2 ^ 32

/-- One macro of a WEIGHT_WRITE has ended its write with a status. The descriptor ends with the last macro; its status is the first of ABORTED
and WRITE_FAULT that a macro met (log entry 20: DESIGN CHOICE, unsafe). -/
def Flight.macroWriteEnd (f : Flight) (k st : Nat) : Flight :=
  let f := { f with left := f.left.filter (· ≠ k), failed := if st = stWriteFault then f.failed ++ [k] else f.failed,
                    status := if st = stAborted then stAborted else if f.status = stOK then st else f.status }
  let f := { f with result := writeResult f.failed }
  if f.left = [] then { f with ready := true } else f

/-- The source of a write learns how it ended: a descriptor by macro, a streaming load or a drain through its core (R160, R161). -/
def Dev.noteWriteEnd (d : Dev) (n m : Nat) (src : WriteSrc) (st : Nat) : Dev :=
  match src with
  | .desc fl => d.modFlight fl fun f => f.macroWriteEnd (n * 68 + m) st
  | .load fl =>
    let d := d.modCore n fun r => { r with loadLeft := r.loadLeft.filter (· ≠ m) }
    if st = stOK then d else d.modFlight fl fun f =>
      if f.status = stOK then { f with status := if st = stAborted then stMacroOff else st } else f
  | .drain fl =>
    let d := d.modFlight fl fun f => { f with left := f.left.filter (· ≠ n * 68 + m) }
    if st = stOK then d else d.modFlight fl fun f =>
      if f.status = stOK then { f with status := if st = stAborted then stMacroOff else st } else f

/-- The writes that wait on a macro, or on one bank of it, end ABORTED (R63, R65). -/
def Dev.abortWaiting (d : Dev) (n m : Nat) (bank : Option Nat) : Dev :=
  (d.macroRun n m).waiting.foldl (fun d j =>
    if bank = none ∨ bank = some j.bank then
      (d.modMacro n m fun r => { r with waiting := r.waiting.erase j }).noteWriteEnd n m j.src stAborted else d) d

/-- Start the next waiting write of a macro, if any; one whose macro or bank is no longer ON ends ABORTED (R63, R65). One that waited behind a streaming
operation starts even where swaps have made its target bank active meanwhile: R63 checks that at dispatch (log entry 249: DESIGN CHOICE). -/
def Dev.nextWrite (d : Dev) (n m : Nat) : Dev :=
  (d.macroRun n m).waiting.foldl (fun d j =>
    if (d.macroRun n m).write.isSome || d.streamHeld n m j.src then d
    else
      let d := d.modMacro n m fun r => { r with waiting := r.waiting.erase j }
      if d.macroOn n m && d.bankOn n m j.bank then d.startWrite n m j else d.noteWriteEnd n m j.src stAborted) d

/-- Record the outcome of a write (R56) and hand the macro to the next. -/
def Dev.endWrite (d : Dev) (n m : Nat) (j : WriteJob) (st : Nat) : Dev :=
  let ok : Bool := st = stOK
  let d := d.setBank n m j.bank (b01 ok) (if ok then j.wsid else 0) j.slot
  let d := d.puts [(F.CIM_BANK_WRITING n m, 0), (F.CIM_WRITE_RESULT_FAILED n m, if j.fails = 0 then 0 else 1),
    (F.CIM_WRITE_RESULT_FIRST_FAIL_ROW n m, j.firstFail), (F.CIM_WRITE_RESULT_SINGLE_PASS n m, b01 j.single),
    (F.CIM_WRITE_RESULT_FAILED_ROWS n m, j.fails), (F.CIM_WRITE_RESULT_MAX_ATTEMPT n m, j.maxAttempt),
    (ksEven n m j.bank, signature 0 j.images), (ksOdd n m j.bank, signature 1 j.images)]
  let key := d.rowKeyOf n m j.bank 0
  let prov := if ok ∧ ¬ j.single then tset d.hlt.provenance key ⟨j.srcAddr, j.srcFmt, j.slot, j.srcRows, j.srcCrc⟩
    else terase d.hlt.provenance key
  let part := match j.src with
    | .desc fl => (d.flight fl).map (·.partition)
    | _ => none
  let envs := d.hlt.envelopes.filter fun e => !(part = some e.part ∧ e.wsid = j.wsid)
  let d := { d with hlt := { d.hlt with provenance := prov, envelopes := envs } }
  let d := d.modMacro n m fun r => { r with write := none }
  (d.noteWriteEnd n m j.src st).nextWrite n m

/-- The rows that a single-pass write has written when it is abandoned: a free number of them, for its rows take no command of their own (R58; log entry
248: DESIGN CHOICE). -/
def Dev.abandonRows (d : Dev) (n m : Nat) (j : WriteJob) : Dev :=
  if !j.single then d else
  let (k, d) := d.drawFree
  (List.range (k.toNat % 513)).foldl (fun d r => d.setRow n m j.bank r (withParity (nth 0 j.images r))) d

/-- Abandon the write in progress on a bank (R65). The known-sum references are those of the rows as they then stand. -/
def Dev.abandonWrite (d : Dev) (n m : Nat) (j : WriteJob) : Dev :=
  let d := d.abandonRows n m j
  d.endWrite n m { j with images := (List.range 512).map fun r => d.row n m j.bank r % 2 ^ 256 } stAborted

/-- The failure record of a row of a write (R397, R398). -/
def Dev.rowRecord (d : Dev) (n m bank r cls source action : Nat) : Dev :=
  d.failRec { unit := 1, cls := cls, source := source, action := action, die := n / 64, index := d.get (F.CORE_ID_PHYSICAL n),
              sub := d.dutyMacro n m, addr := bank * 512 + r, logical := n }

/-- Whether a write in flight is to be abandoned at the end of its row: its macro or bank has left ON (R65), or its context stops in abort mode (R329). -/
def Dev.writeStops (d : Dev) (n m : Nat) (j : WriteJob) : Bool :=
  !(d.macroOn n m && d.bankOn n m j.bank) || (match j.src with
    | .desc fl => ((d.flight fl).map (·.aborting)).getD false
    | _ => false)

/-- A row attempt of a program-and-verify write ends its margin read (R54, R55). -/
def Dev.pvAttempt (d : Dev) (n m : Nat) (pass : Bool) : Dev :=
  match (d.macroRun n m).write with
  | none => d
  | some j =>
    if j.single then d else
    let d := d.setRow n m j.bank j.row (withParity (nth 0 j.images j.row))
    let d := if 1 < j.attempt then d.bump (F.CIM_CNT_RETRY n m) 1 else d
    let j := { j with maxAttempt := max j.maxAttempt j.attempt }
    let stopping := d.writeStops n m j
    let past : Bool := pass || decide (d.get F.CIM_PV_MARGIN_MAX_ATTEMPTS ≤ j.attempt)
    let d := if pass ∧ 3 ≤ j.attempt then
        (((d.bump (F.CIM_CNT_MARGINAL n m) 1).tell 5 1 (n * 68 + m)).askSlice n m).rowRecord n m j.bank j.row clsTransient 3 0xA
      else if pass ∧ 2 ≤ j.attempt then d.rowRecord n m j.bank j.row clsTransient 3 1
      else if past && !pass then
        ((d.tell 5 2 (n * 68 + m)).askRepair n m).rowRecord n m j.bank j.row clsLasting 3 0xA
      else d
    let j := if past && !pass then { j with fails := j.fails + 1, firstFail := if j.fails = 0 then j.row else j.firstFail } else j
    let next := if past then { j with row := j.row + 1, attempt := 1 } else { j with attempt := j.attempt + 1 }
    if stopping then d.abandonWrite n m next
    else if past && next.row = 512 then d.endWrite n m j (if j.fails = 0 then stOK else stWriteFault)
    else d.modMacro n m fun r => { r with write := some next }

/-- A single-pass write of 512 rows ends (R58), abandoned where its macro or bank has left ON since (R65): the rows whose first parity check failed were rewritten, and those of them that failed the
rewrite are lasting. -/
def Dev.singlePassDone (d : Dev) (n m : Nat) (firstFails rewriteFails : List Nat) : Dev :=
  match (d.macroRun n m).write with
  | none => d
  | some j =>
    if !j.single then d
    else if d.writeStops n m j then d.abandonWrite n m j
    else
    let d := (List.range 512).foldl (fun d r => d.setRow n m j.bank r (withParity (nth 0 j.images r))) d
    let d := d.bump (F.CIM_CNT_RETRY n m) firstFails.length
    let bad := firstFails.filter fun r => rewriteFails.contains r
    let d := firstFails.foldl (fun d r =>
      if bad.contains r then d.rowRecord n m j.bank r clsLasting 3 0xA else d.rowRecord n m j.bank r clsTransient 3 1) d
    let d := if bad = [] then d else (d.tell 5 2 (n * 68 + m)).askRepair n m
    let j := { j with fails := bad.length, firstFail := bad.foldl min (bad.headD 0), maxAttempt := if firstFails = [] then 1 else 2 }
    d.endWrite n m j (if bad = [] then stOK else stWriteFault)

/-! ### Bank order and swaps (R60 to R64, R71, R72) -/

/-- The first swap in a macro's bank order. -/
def firstSwap : List OrderItem → Option Nat
  | [] => none
  | .swap _ dest _ :: _ => some dest
  | .op _ :: t => firstSwap t

/-- Let CIM_BANK show the first waiting swap (SWAP_WAIT, SWAP_TO). -/
def Dev.syncSwap (d : Dev) (n m : Nat) : Dev :=
  match firstSwap (d.macroRun n m).order with
  | some dest => (d.put (F.CIM_BANK_SWAP_WAIT n m) 1).put (F.CIM_BANK_SWAP_TO n m) dest
  | none => d.put (F.CIM_BANK_SWAP_WAIT n m) 0

/-- An operation or a swap enters a macro's bank order (R60). -/
def Dev.enterOrder (d : Dev) (n m : Nat) (i : OrderItem) : Dev :=
  (d.modMacro n m fun r => { r with order := r.order ++ [i] }).syncSwap n m

/-- An operation leaves a macro's bank order: it drives no further vector there. Writes that waited for it start. -/
def Dev.leaveOrder (d : Dev) (n m fl : Nat) : Dev :=
  ((d.modMacro n m fun r => { r with order := r.order.filter (· ≠ .op fl) }).syncSwap n m).nextWrite n m

/-- Whether a write on a bank of a macro runs or waits. -/
def Dev.writeOn (d : Dev) (n m bank : Nat) : Bool :=
  let r := d.macroRun n m
  (match r.write with
    | some j => j.bank = bank
    | none => false) || r.waiting.any fun j => j.bank = bank

/-- The check a swap makes at the head of bank order (R61). It is made also where the target bank is active already and holds EXPECT_WSID: in a macro or
bank that is not ON such a swap fails, although R71 says that it completes successfully (log entry 250: DESIGN CHOICE). -/
def Dev.swapCheck (d : Dev) (n m dest expect : Nat) : Bool :=
  d.macroOn n m && d.bankOn n m dest && d.get (cimVALID n m dest) = 1 && d.get (cimWSID n m dest) = expect

/-- Whether a swap to a bank is a swap behind operations that hold the macro. -/
def OrderItem.isOp : OrderItem → Bool
  | .op _ => true
  | .swap _ _ _ => false

/-- The swap at the head of a macro's bank order applies, or fails its check (R61, R71); it waits while a write to the target bank is in
progress. -/
def Dev.swapApply (d : Dev) (n m : Nat) : Dev :=
  match (d.macroRun n m).order with
  | .swap fl dest expect :: rest =>
    if d.writeOn n m dest then d else
    let ok := d.swapCheck n m dest expect
    let d := (d.modMacro n m fun r => { r with order := rest }).syncSwap n m
    let d := if ok then (d.put (F.CIM_BANK_ACTIVE n m) dest).syncMaps n m else d
    match fl with
    | none => if ok then d.modCore n fun r => { r with loadLeft := r.loadLeft.filter (· ≠ m) } else d
    | some i => d.modFlight i fun f =>
      let f := { f with left := f.left.filter (· ≠ n * 68 + m), result := f.result + b01 (!ok),
                        status := if ok then f.status else stBankInvalid }
      if f.left = [] then { f with ready := true } else f
  | _ => d

/-- The macros a WEIGHT_WRITE or BANK_SWAP names, in order (R68, R71). -/
def namedMacros (fc cc fm mc : Nat) : List (Nat × Nat) :=
  (List.range cc).flatMap fun i => (List.range mc).map fun j => (fc + i, fm + j)

/-- Put the swaps of a BANK_SWAP into bank order of its macros (R64: a course-scheduled swap that finds operations ahead is late). -/
def Dev.enterSwaps (d : Dev) (fl : Nat) (late : Bool) : Dev :=
  match d.flight fl with
  | none => d
  | some f =>
    let b := f.desc
    let ms := namedMacros (fld b 16 0 8) (fld b 17 0 9) (fld b 19 0 6) (fld b 20 0 7)
    let d := d.setFlight fl { f with left := ms.map (fun p => p.1 * 68 + p.2), armed := none }
    ms.foldl (fun d p =>
      let busy := (d.macroRun p.1 p.2).order.any OrderItem.isOp
      let d := if late && busy then d.bump (F.CIM_CNT_LATE_SWAP p.1 p.2) 1 else d
      d.enterOrder p.1 p.2 (.swap (some fl) (fld b 21 0 1) (fld b 22 0 16))) d

/-- Reserved fields and encodings of a BANK_SWAP body (R9, R71). The limits on FIRST_CORE + CORE_COUNT and FIRST_MACRO + MACRO_COUNT are those that R68 gives
a WEIGHT_WRITE; R71 states none (log entry 251: DESIGN CHOICE). -/
def swapBodyOk (b : Nat) : Bool :=
  fld b 17 9 7 = 0 && fld b 19 6 2 = 0 && fld b 20 7 1 = 0 && fld b 21 2 6 = 0 && fld b 32 0 256 = 0 &&
  decide (1 ≤ fld b 17 0 9) && decide (fld b 16 0 8 + fld b 17 0 9 ≤ 256) &&
  decide (1 ≤ fld b 20 0 7) && decide (fld b 19 0 6 + fld b 20 0 7 ≤ 64)

/-- What a BANK_SWAP does at dispatch (R64, R71): the in-flight descriptor enters bank order, is armed, or ends. -/
def dispatchBankSwap (z : Fixed) (d : Dev) (fl : Nat) (f : Flight) : Dev :=
  let b := f.desc
  let cores := (List.range (fld b 17 0 9)).map (fld b 16 0 8 + ·)
  if !swapBodyOk b then d.setFlight fl (f.finish stInvalidField)
  else if cores.any fun n => z.partOfCore n ≠ f.partition then d.setFlight fl (f.finish stPartitionDenied)
  else if fld b 21 1 1 = 1 then
    if fld b 24 0 64 ≤ d.course then d.setFlight fl (f.finish stCoursePassed)
    else d.setFlight fl { f with armed := some (fld b 24 0 64) }
  else d.enterSwaps fl false

/-! ### WEIGHT_WRITE (R63, R68 to R70) -/

/-- Reserved fields and encodings of a WEIGHT_WRITE body (R9, R68, R69). -/
def writeBodyOk (b : Nat) : Bool :=
  let w := slotWidth (fld b 30 2 3)
  fld b 30 5 3 = 0 && fld b 31 4 4 = 0 && fld b 32 10 6 = 0 && fld b 35 9 7 = 0 && fld b 37 6 2 = 0 && fld b 38 7 1 = 0 &&
  fld b 39 0 200 = 0 && fld b 16 0 64 % 32 = 0 && fld b 24 0 32 % 32 = 0 && decide (fld b 28 0 16 ≠ 0) &&
  decide (fld b 30 2 3 ≤ 4) && decide (fld b 31 0 4 ≤ 8) && decide (1 ≤ fld b 32 0 10) && decide (fld b 32 0 10 ≤ 512) &&
  decide (1 ≤ fld b 35 0 9) && decide (fld b 34 0 8 + fld b 35 0 9 ≤ 256) &&
  decide (1 ≤ fld b 38 0 7) && decide (fld b 37 0 6 + fld b 38 0 7 ≤ 64) &&
  decide (fld b 32 0 10 * srcRowBytes (fld b 31 0 4) w ≤ fld b 24 0 32)

/-- CRC-32C with the reflected polynomial 0x82F63B78, all-ones start and final inversion (R254). -/
def crc32cByte (crc b : Nat) : Nat :=
  (List.range 8).foldl (fun c _ => if c % 2 = 1 then (c / 2) ^^^ 0x82F63B78 else c / 2) (crc ^^^ b)
def crc32c (bytes : List Byte) : Nat := (bytes.foldl (fun c b => crc32cByte c b.toNat) 0xFFFFFFFF) ^^^ 0xFFFFFFFF

/-- What a WEIGHT_WRITE does at dispatch (R63, R68 to R70, R191, R220). Its source is read, and its elements checked, before the macros are: a refused or
unreadable source gives its status whatever the state of the macros (log entry 252: DESIGN CHOICE). -/
def dispatchWeightWrite (z : Fixed) (d : Dev) (fl : Nat) (f : Flight) : Dev :=
  let b := f.desc
  let fmt := fld b 31 0 4
  let slot := fld b 30 2 3
  let w := slotWidth slot
  let rows := fld b 32 0 10
  let rb := srcRowBytes fmt w
  let bank := fld b 30 0 1
  let single : Bool := fld b 30 1 1 = 1
  let ms := namedMacros (fld b 34 0 8) (fld b 35 0 9) (fld b 37 0 6) (fld b 38 0 7)
  if !writeBodyOk b then d.setFlight fl (f.finish stInvalidField)
  else if ms.any fun p => z.partOfCore p.1 ≠ f.partition then d.setFlight fl (f.finish stPartitionDenied)
  else if single && fld b 37 0 6 < 56 then d.setFlight fl (f.finish stNotStreaming)
  else
    let at_ := fun (i : Nat) => fld b 16 0 64 + i * fld b 24 0 32
    let bad := (List.range ms.length).findSome? fun i => readStatus z d (some f.partition) (at_ i) (rows * rb)
    match bad with
    | some (a, st) => (d.countRefusal a st).setFlight fl (f.finish st)
    | none =>
      let d := (List.range ms.length).foldl (fun d i => d.touch (at_ i) (rows * rb)) d
      let raw := fun (d : Dev) (i r : Nat) => d.peekNat (at_ i + r * rb) rb
      if (List.range ms.length).any fun i => (List.range rows).any fun r => rowReserved fmt w (raw d i r) then
        d.setFlight fl (f.finish stInvalidField)
      else if ms.any fun p => !(d.macroOn p.1 p.2 && d.bankOn p.1 p.2 bank) then d.setFlight fl (f.finish stMacroOff)
      else if ms.any fun p => d.activeBank p.1 p.2 = bank ∨ (d.macroRun p.1 p.2).order.any (fun o => match o with
          | .swap _ dest _ => dest = bank
          | .op _ => false) then d.setFlight fl (f.finish stBankActive)
      else
        let imgs := fun (i : Nat) => (List.range rows).map fun r => rowImage fmt w (raw d i r)
        let sat := nsum ((List.range ms.length).map fun i => nsum ((imgs i).map (·.2)))
        let d1 := d.setFlight fl { f with left := ms.map (fun p => p.1 * 68 + p.2), result := writeResult [],
                                          counts := { f.counts with sat := f.counts.sat + sat } }
        (List.range ms.length).foldl (fun d' i =>
          let p := nth (0, 0) ms i
          d'.queueWrite p.1 p.2 { src := .desc fl, bank := bank, slot := slot, wsid := fld b 28 0 16, single := single,
                                  images := (imgs i).map (·.1) ++ List.replicate (512 - rows) 0,
                                  srcAddr := at_ i, srcFmt := fmt, srcRows := rows, srcCrc := crc32c (d.peeks (at_ i) (rows * rb)) }) d1

/-! ### The arithmetic of a vector (R43 to R52) -/

/-- Rows of a TAP code (R45). -/
def tapRows (code : Nat) : Nat := 32 * 2 ^ code

/-- A vector at a macro: for each row in order its cells and its activation code. -/
abbrev VecRows := List (Nat × Nat)

/-- The rows of a segment or group whose activation has bit `t` set: x(r) = 1 (R44). -/
def drivenRows (rows : VecRows) (lo len t : Nat) : List Nat :=
  (((rows.drop lo).take len).filter fun p => bitsAt p.2 t 1 = 1).map (·.1)

/-- d(q, j): the P count minus the N count of column pair `j` over the rows of a segment that plane `t` drives (R44, R45). -/
def columnDiff (rows : VecRows) (lo len t j : Nat) : Int :=
  isum ((drivenRows rows lo len t).map fun c => ((bitsAt c j 1 : Nat) : Int) - ((bitsAt c (128 + j) 1 : Nat) : Int))

/-- tsum of a slot: its column pairs combined by shift-add (R46). -/
def slotSum (rows : VecRows) (lo len t w s : Nat) : Int :=
  isum ((List.range w).map fun i => columnDiff rows lo len t (s * w + i) * (2 ^ i : Nat))

/-- PLANE_NZ: whether any row has bit `t` set (R43). -/
def planeNz (rows : VecRows) (t : Nat) : Bool := rows.any fun p => bitsAt p.2 t 1 = 1

/-- The subtotal of a slot and a segment after planes 0 to `k - 1` (R46); a plane with PLANE_NZ = 0 is skipped. -/
def accAfter (rows : VecRows) (lo len w s b : Nat) (signed : Bool) : Nat → Int
  | 0 => 0
  | k + 1 =>
    let a := accAfter rows lo len w s b signed k
    if planeNz rows k then
      let t := slotSum rows lo len k w s
      if signed && k + 1 = b then a - t * (2 ^ k : Nat) else a + t * (2 ^ k : Nat)
    else a

/-- Whether a count unit raises its carry bit in wide-group mode: 64 ones in one column of one wide group (R51, R52). -/
def wideCarry (rows : VecRows) (t : Nat) : Bool :=
  (List.range 8).any fun g =>
    let l := drivenRows rows (64 * g) 64 t
    decide (l.length = 64) && decide (l.foldl (fun a c => a &&& c) (2 ^ 256 - 1) ≠ 0)

/-- Whether every one of the 512 bits of the plane word is 1 (R49). -/
def fullScale (rows : VecRows) (t : Nat) : Bool := decide (rows.length = 512) && rows.all fun p => bitsAt p.2 t 1 = 1

/-- What a macro counts over a vector: planes driven, planes skipped, overflow splits, full-scale cycles (R47 to R49, R52). -/
structure VecCounts where
  planes : Nat
  skipped : Nat
  splits : Nat
  fullscale : Nat
  deriving DecidableEq, Repr

def vecCounts (rows : VecRows) (b : Nat) (wide : Bool) : VecCounts :=
  (List.range b).foldl (fun k t =>
    if planeNz rows t then
      let sp := if wide && wideCarry rows t then 1 else 0
      { planes := k.planes + 1 + sp, skipped := k.skipped, splits := k.splits + sp,
        fullscale := k.fullscale + if fullScale rows t then 1 + sp else 0 }
    else { k with skipped := k.skipped + 1 }) ⟨0, 0, 0, 0⟩

/-- The signature a known-sum check forms: the even or odd rows of the active bank driven at tap 512 in normal mode (R412). -/
def ksObserved (d : Dev) (n m bank odd : Nat) : Nat :=
  signature odd ((List.range 512).map fun r => d.row n m bank r % 2 ^ 256)

end Sys2Proof.Machine
end

