-- ==== Sys2Proof/Machine/Atomics.lean ====
section
/-! DEFINITION. Sys2Proof/Machine/Atomics.lean: atomic add and swap at the banks of a die pool or of the deck home (R194, R195). -/
namespace Sys2Proof.Machine

open Sys2Proof

/-- Whether an operand is one that a bank performs an atomic on: naturally aligned, of 4 or 8 bytes (R194). -/
def atomicFits (a width : Nat) : Bool := (width = 4 || width = 8) && a % width = 0

/-- The status an atomic ends with (R191, R194, R205): misaligned, of another width, or aimed elsewhere than at a die pool or the deck home. -/
def atomicStatus (z : Fixed) (d : Dev) (part : Option Nat) (a width : Nat) : Nat :=
  let st := accessStatus z d part a
  let bank : Bool := match d.region a with
    | .pool _ _ => true
    | .deckHome _ => true
    | _ => false
  if st = stOK ∧ ¬ (bank ∧ atomicFits a width) then stAddressFault else st

/-- Count an atomic performed (POOL_DP_CNT_ATOMICS, DECK_HOME_CNT_ATOMICS). -/
def Dev.countAtomic (d : Dev) (a : Nat) : Dev :=
  match d.region a with
  | .pool die _ => d.bump (F.POOL_DP_CNT_ATOMICS die) 1
  | .deckHome _ => d.bump F.DECK_HOME_CNT_ATOMICS 1
  | _ => d

/-- ADD: the value before the add, and the state with the sum modulo 2^32 or 2^64 stored (R194). -/
def Dev.atomicAdd (d : Dev) (a width v : Nat) : Nat × Dev :=
  let old := d.peekNat a width
  (old, (d.bankWrite a (leBytes width ((old + v) % 2 ^ (8 * width)))).countAtomic a)

/-- SWAP: the value before the store, and the state with the operand stored (R194). -/
def Dev.atomicSwap (d : Dev) (a width v : Nat) : Nat × Dev :=
  (d.peekNat a width, (d.bankWrite a (leBytes width v)).countAtomic a)

end Sys2Proof.Machine
end

