-- ==== Sys2Proof/Machine/OpRecord.lean ====
section
/-! DEFINITION. Sys2Proof/Machine/OpRecord.lean: the 512-byte operation record of a MATRIX (R132 to R138, R150, R154, R159), what R164 checks of
it, and the geometry of its tiles (R139 to R148). The record is held as one little-endian number. -/
namespace Sys2Proof.Machine

open Sys2Proof

/-! ### Line 0 (R134) -/

def opVersion (o : Nat) : Nat := fld o 0 0 16
def opKind (o : Nat) : Nat := fld o 2 0 1
def opBSrc (o : Nat) : Nat := fld o 2 1 1
def opWindow (o : Nat) : Bool := fld o 2 2 1 = 1
def opHeadAxis (o : Nat) : Nat := fld o 2 3 1
def opStage2 (o : Nat) : Bool := fld o 2 4 1 = 1
def opSpillPool (o : Nat) : Bool := fld o 2 5 1 = 1
def opCompute (o : Nat) : Nat := fld o 3 0 2
def opChunkRun (o : Nat) : Nat := fld o 3 2 3
def opM (o : Nat) : Nat := fld o 4 0 32
def opN (o : Nat) : Nat := fld o 8 0 32
def opK (o : Nat) : Nat := fld o 12 0 32
def opBatch (o : Nat) : Nat := fld o 16 0 16
def opHeads (o : Nat) : Nat := fld o 18 0 16
def opOrder (o l : Nat) : Nat := fld o 20 (3 * l) 3
def opHand (o : Nat) : Nat := fld o 22 0 4
def opTM (o l : Nat) : Nat := 32 * fld o (24 + 8 * l) 0 24
def opTN (o l : Nat) : Nat := 8 * fld o (24 + 8 * l) 24 20
def opTK (o l : Nat) : Nat := 512 * fld o (24 + 8 * l) 44 20
def opDeck (o : Nat) : Nat := fld o 56 0 64

/-! ### Line 1 (R136) -/

def opAAddr (o : Nat) : Nat := fld o 64 0 64
def opAConv (o : Nat) : Nat := fld o 72 0 16
def opAFmt (o : Nat) : Nat := convFmt (opAConv o)
def opARow (o : Nat) : Nat := fld o 76 0 32
def opABatch (o : Nat) : Nat := fld o 80 0 64
def opAHead (o : Nat) : Nat := fld o 88 0 64
def opAScale (o : Nat) : ScaleRef := scaleRefAt o 96

/-! ### Line 2 (R137, R159) -/

def opWsid (o : Nat) : Nat := fld o 128 0 16
def opSlot (o : Nat) : Nat := fld o 130 0 3
def opBankSel (o : Nat) : Nat := fld o 130 3 2
def opKC (o : Nat) : Nat := fld o 131 0 7
def opNC (o : Nat) : Nat := fld o 132 0 9
def opKM (o : Nat) : Nat := fld o 134 0 7
def opNM (o : Nat) : Nat := fld o 135 0 7
def opReplicas (o : Nat) : Nat := fld o 136 0 6
def opReplicaCore (o p : Nat) : Nat := fld o (144 + p) 0 8
def opBScale (o : Nat) : ScaleRef := scaleRefAt o 176
def opBAddr (o : Nat) : Nat := fld o 128 0 64
def opBConv (o : Nat) : Nat := fld o 136 0 16
def opBFmt (o : Nat) : Nat := convFmt (opBConv o)
def opBTrans (o : Nat) : Bool := fld o 138 0 1 = 1
def opKS (o : Nat) : Nat := fld o 139 0 4
def opNS (o : Nat) : Nat := fld o 139 4 4
def opBRow (o : Nat) : Nat := fld o 140 0 32
def opBBatch (o : Nat) : Nat := fld o 144 0 64
def opBHead (o : Nat) : Nat := fld o 152 0 64
def opFirstCore (o : Nat) : Nat := fld o 160 0 8
def opCoreCount (o : Nat) : Nat := fld o 161 0 9

/-! ### Line 3 (R138) -/

def opOut (o : Nat) : Nat := fld o 192 0 64
def opOutRow (o : Nat) : Nat := fld o 200 0 32
def opStage1Off (o : Nat) : Nat := fld o 204 0 32
def opOutBatch (o : Nat) : Nat := fld o 208 0 64
def opOutHead (o : Nat) : Nat := fld o 216 0 64
def opSpillOff (o : Nat) : Nat := fld o 224 0 32
def opSpillStride (o : Nat) : Nat := fld o 228 0 32
def opStage2Off (o : Nat) : Nat := fld o 232 0 32
def opHaloOff (o : Nat) : Nat := fld o 236 0 32
def opHaloStride (o : Nat) : Nat := fld o 240 0 32
def opHaloSlots (o : Nat) : Nat := fld o 244 0 16
def opStage1Slots (o : Nat) : Nat := fld o 246 0 4
def opHaloDie (o : Nat) : Nat := fld o 246 4 2

/-! ### Line 4 (R150) -/

def opIH (o : Nat) : Nat := fld o 256 0 16
def opIW (o : Nat) : Nat := fld o 258 0 16
def opC (o : Nat) : Nat := fld o 260 0 16
def opKH (o : Nat) : Nat := fld o 262 0 8
def opKW (o : Nat) : Nat := fld o 263 0 8
def opSY (o : Nat) : Nat := fld o 264 0 8
def opSX (o : Nat) : Nat := fld o 265 0 8
def opDY (o : Nat) : Nat := fld o 266 0 8
def opDX (o : Nat) : Nat := fld o 267 0 8
def opPY (o : Nat) : Nat := fld o 268 0 8
def opPX (o : Nat) : Nat := fld o 269 0 8

/-- Output rows and columns of the window (R150). -/
def opOH (o : Nat) : Int := ((opIH o + 2 * opPY o : Nat) - (opDY o * (opKH o - 1) : Nat) - 1 : Int) / (opSY o : Int) + 1
def opOW (o : Nat) : Int := ((opIW o + 2 * opPX o : Nat) - (opDX o * (opKW o - 1) : Nat) - 1 : Int) / (opSX o : Int) + 1

/-! ### Lines 5 to 7 (R133, R154) -/

def opSref (o i : Nat) : ScaleRef := scaleRefAt o (320 + 16 * i)

/-- A drain step (R154). -/
structure DrainStep where
  type : Nat
  sref : Nat
  perChannel : Bool
  dest : Bool
  transpose : Bool
  arg16 : Nat
  arg32 : Nat
  arg64 : Nat
  rsv : Bool
  deriving DecidableEq, Repr

def opStep (o s : Nat) : DrainStep :=
  let b := 384 + 16 * s
  ⟨fld o b 0 4, fld o (b + 1) 0 2, fld o (b + 1) 2 1 = 1, fld o (b + 1) 3 1 = 1, fld o (b + 1) 4 1 = 1, fld o (b + 2) 0 16,
    fld o (b + 4) 0 32, fld o (b + 8) 0 64, decide (fld o b 4 4 ≠ 0) || decide (fld o (b + 1) 5 3 ≠ 0)⟩

def opSteps (o : Nat) : List DrainStep := (List.range 8).map (opStep o)

/-- The steps before the chain ends, in order (R154, R155). -/
def opChain (o : Nat) : List DrainStep := (opSteps o).takeWhile fun s => s.type ≠ 0

/-- The OUTPUT step of a chain. -/
def opOutput (o : Nat) : Option DrainStep := (opSteps o).find? fun s => s.type = 8

/-- REPLAY_THRESHOLD of a REQUANTISE step (R125, R154). -/
def DrainStep.threshold (s : DrainStep) : Nat := s.arg32 % 65536

/-! ### Geometry -/

/-- Slot width of a weight format code under a compute format; 0 where the format is no weight format (R73, R135, R159). An INT2 streaming
operand takes slot width 2 (log entry 21: DESIGN CHOICE, unsafe). -/
def weightWidth (compute c : Nat) : Nat :=
  match compute with
  | 1 => if isFloatOperand c then 16 else 0
  | 2 => if c = 0x0E then 8 else 0
  | 3 => if c = 0x10 then 4 else 0
  | _ => match c with
    | 0x02 => 1
    | 0x04 => 2
    | 0x06 => 4
    | 0x08 => 8
    | 0x0C => 16
    | _ => 0

/-- Slot width of the weights of an operation. -/
def opW (o : Nat) : Nat := if opKind o = 0 then slotWidth (opSlot o) else weightWidth (opCompute o) (opBFmt o)

/-- Whether B changes from one fold unit to the next (R139). -/
def opBChanges (o : Nat) : Bool :=
  opKind o = 1 && (decide (opBBatch o ≠ 0) || (opHeadAxis o = 0 && decide (opBHead o ≠ 0)))

/-- H_M and U of R139. -/
def opHM (o : Nat) : Nat := if opHeadAxis o = 0 then opHeads o else 1
def opU (o : Nat) : Nat := if opBChanges o then roundUp (opM o) (opTM o 2) else opM o

/-- Folded extents (R139). -/
def opMf (o : Nat) : Nat := opBatch o * opHM o * opU o
def opNf (o : Nat) : Nat := if opHeadAxis o = 1 then opHeads o * opN o else opN o

/-- Batch item, head and row of a folded row (R139). -/
def foldRow (o mf : Nat) : Nat × Nat × Nat := (mf / opU o / opHM o, mf / opU o % opHM o, mf % opU o)

/-- Head and column of a folded column (R139). -/
def foldCol (o nf : Nat) : Nat × Nat := if opHeadAxis o = 1 then (nf / opN o, nf % opN o) else (0, nf)

/-- The head of an element. -/
def foldHead (o mf nf : Nat) : Nat := if opHeadAxis o = 1 then (foldCol o nf).1 else (foldRow o mf).2.1

/-- Whether a folded row holds elements: inside M_f and inside M of its fold unit (R149). -/
def rowValid (o mf : Nat) : Bool := decide (mf < opMf o) && decide (mf % opU o < opM o)
def colValid (o nf : Nat) : Bool := decide (nf < opNf o)

/-- Chunk length L (R107). -/
def opL (o : Nat) : Nat :=
  if opCompute o ≠ 0 then 32
  else
    let a := opAScale o
    let b := opBScale o
    if a.mode = 3 ∨ b.mode = 3 then
      min (if a.mode = 3 then a.groupSize else 2 ^ 32) (if b.mode = 3 then b.groupSize else 2 ^ 32)
    else 32 * 2 ^ opChunkRun o

/-- Tap code: the segment length is min(L, 512) (R107). -/
def opTap (o : Nat) : Nat := Nat.log2 (min (opL o) 512 / 32)

/-- Deck tiles (R144, R168). -/
def opTiles (o : Nat) : Nat := ceilDiv (opMf o) (opTM o 2) * ceilDiv (opNf o) (opTN o 2)

/-- Origins (m, n) of the deck tiles in their numbering (R144). -/
def opTileList (o : Nat) : List (Nat × Nat) :=
  (walkOrder (opOrder o 3) (ceilDiv (opMf o) (opTM o 3)) (ceilDiv (opNf o) (opTN o 3)) 1).flatMap fun p3 =>
    (walkOrder (opOrder o 2) (opTM o 3 / opTM o 2) (opTN o 3 / opTN o 2) 1).filterMap fun p2 =>
      let m := p3.1 * opTM o 3 + p2.1 * opTM o 2
      let n := p3.2.1 * opTN o 3 + p2.2.1 * opTN o 2
      if m < opMf o ∧ n < opNf o then some (m, n) else none

/-- Drawers D of an operation (R178). -/
def opDrawers (o : Nat) : Nat := if opKind o = 0 then opReplicas o else opCoreCount o

/-- The lead core of drawer `d` (R166). -/
def opLead (o d : Nat) : Nat := if opKind o = 0 then opReplicaCore o d else opFirstCore o + d

/-- The cores of drawer `d` (R148, R166). -/
def opCores (o d : Nat) : List Nat :=
  if opKind o = 0 then (List.range (opKC o * opNC o)).map (opReplicaCore o d + ·) else [opFirstCore o + d]

/-- Every core of the placement (R127). -/
def opAllCores (o : Nat) : List Nat := (List.range (opDrawers o)).flatMap (opCores o)

/-- Chain index and position in the chain of a core of drawer `d` (R148). -/
def opChainOf (o d n : Nat) : Nat × Nat := if opKind o = 0 then ((n - opReplicaCore o d) / opKC o, (n - opReplicaCore o d) % opKC o) else (0, 0)

/-- K tiles and macro columns a core holds at one time. -/
def opKTiles (o : Nat) : Nat := if opKind o = 0 then opKM o else opKS o
def opNCols (o : Nat) : Nat := if opKind o = 0 then opNM o else opNS o

/-- The logical macro that holds K tile `kt` and macro column `nb` (R148, R160). -/
def opMacro (o kt nb : Nat) : Nat := if opKind o = 0 then kt * opNM o + nb else 56 + kt * opNS o + nb

/-- A level-1 or level-0 tile: origins relative to the operation, in m, n and k. -/
structure TilePos where
  m : Nat
  n : Nat
  k : Nat
  deriving DecidableEq, Repr

/-- Level-1 tiles of deck tile (m2, n2) for a core at chain position (c, kc), in ORDER1 (R142, R145). -/
def level1 (o m2 n2 c kc : Nat) : List TilePos :=
  if opKind o = 0 then
    (List.range (opTM o 2 / opTM o 1)).map fun i => ⟨m2 + i * opTM o 1, n2 + c * opTN o 0, kc * opTK o 0⟩
  else
    (walkOrder (opOrder o 1) (opTM o 2 / opTM o 1) (opTN o 2 / opTN o 1) (opTK o 2 / opTK o 1)).map fun p =>
      ⟨m2 + p.1 * opTM o 1, n2 + p.2.1 * opTN o 1, p.2.2 * opTK o 1⟩

/-- Level-0 tiles of a level-1 tile, in ORDER0; one that lies wholly beyond K is not walked (R147). -/
def level0 (o : Nat) (t : TilePos) : List TilePos :=
  ((walkOrder (opOrder o 0) (opTM o 1 / 32) (opTN o 1 / opTN o 0) (opTK o 1 / opTK o 0)).map fun p =>
    (⟨t.m + p.1 * 32, t.n + p.2.1 * opTN o 0, t.k + p.2.2 * opTK o 0⟩ : TilePos)).filter fun p => decide (p.k < opK o)

/-- The end of the K range that a core adds in one pass (R108). -/
def passEnd (o : Nat) (t : TilePos) : Nat := min (opK o) (t.k + opTK o 1)

/-! ### Checks at dispatch (R164) -/

def mulOk (a b : Nat) : Bool := decide (b ≠ 0) && decide (a % b = 0)

/-- Ranges and reserved fields of line 0 (R134). -/
def opLine0Ok (o : Nat) : Bool :=
  opVersion o = 1 && (opKind o = 1 || opBSrc o = 0) && fld o 2 6 2 = 0 && fld o 3 5 3 = 0 && fld o 20 12 4 = 0 &&
  fld o 22 4 4 = 0 && fld o 23 0 8 = 0 && decide (1 ≤ opM o) && decide (1 ≤ opN o) && decide (opN o ≤ 8388600) &&
  decide (1 ≤ opK o) && decide (opK o ≤ 536870400) && decide (1 ≤ opBatch o) && decide (1 ≤ opHeads o) &&
  (List.range 4).all (fun l => decide (opOrder o l ≤ 5)) && decide (1 ≤ opHand o) && decide (opHand o ≤ 8)

/-- The formats and scale modes of the activation operand (R73, R118, R135, R136). -/
def opAOk (o : Nat) : Bool :=
  let c := opAFmt o
  let r := opAScale o
  let integer := (fmtInt c).isSome || c = 0x02
  let fmt := match opCompute o with
    | 0 => integer && decide (r.mode ≤ 3)
    | 1 => isFloatOperand c && r.mode = 0
    | 2 => ((c = 0x0D || c = 0x0E) && r.mode = 4) || (isFloatOperand c && r.mode = 0)
    | _ => ((c = 0x0F || c = 0x10) && r.mode = 4) || (isFloatOperand c && r.mode = 0)
  let rowElems := if opWindow o then opIW o * opC o else opK o
  let groups := if r.mode = 3 then ceilDiv (opK o) r.groupSize else
    if r.mode = 4 then ceilDiv (opK o) (match fmtBlock c with
      | some (_, _, z) => z
      | none => 32) else 0
  convOk (opAConv o) && fmt && fld o 74 0 16 = 0 && fld o 112 0 128 = 0 && opAAddr o % 32 = 0 && opARow o % 32 = 0 &&
  decide (ceilDiv (rowElems * fmtWidth c) 8 ≤ opARow o) && r.ok && decide (r.source ≠ 2) &&
  (r.source = 0 || (qmaxOf c).isSome) && (r.mode ≠ 3 || decide (4 * groups ≤ r.stride)) && (r.mode ≠ 4 || decide (groups ≤ r.stride))

/-- The scale reference of the weight operand (R118, R121, R135). -/
def opBScaleOk (o : Nat) : Bool :=
  let r := opBScale o
  let groups := if r.mode = 3 then ceilDiv (opK o) r.groupSize else ceilDiv (opK o) 32
  let mode := match opCompute o with
    | 0 => decide (r.mode ≤ 3)
    | _ => r.mode = 4
  mode && r.ok && decide (r.source ≠ 2) && (r.source = 0 || opKind o = 0 || (qmaxOf (opBFmt o)).isSome) &&
  (r.mode ≠ 3 || decide (4 * groups ≤ r.stride)) && (r.mode ≠ 4 || decide (groups ≤ r.stride))

/-- Line 2 of a resident operation (R137, R148): placement rules included. -/
def opResidentOk (o : Nat) : Bool :=
  let span := opKC o * opNC o
  let firsts := (List.range (opReplicas o)).map (opReplicaCore o)
  let chains := firsts.flatMap fun f => (List.range (opNC o)).map fun c => f + c * opKC o
  let slotFmt := match opCompute o with
    | 1 => opSlot o = 4
    | 2 => opSlot o = 3
    | 3 => opSlot o = 2
    | _ => decide (opSlot o ≤ 4)
  slotFmt && decide (opWsid o ≠ 0) && decide (opBankSel o ≠ 3) && fld o 130 5 3 = 0 && fld o 131 7 1 = 0 && fld o 132 9 7 = 0 &&
  fld o 134 7 1 = 0 && fld o 135 7 1 = 0 && fld o 136 6 2 = 0 && fld o 137 0 56 = 0 &&
  decide (1 ≤ opKC o) && decide (opKC o ≤ 64) && decide (1 ≤ opNC o) && decide (opNC o ≤ 256) &&
  decide (1 ≤ opKM o) && decide (opKM o ≤ 64) && decide (1 ≤ opNM o) && decide (opNM o ≤ 64) && decide (opKM o * opNM o ≤ 64) &&
  decide (1 ≤ opReplicas o) && decide (opReplicas o ≤ 32) &&
  ((List.range 32).drop (opReplicas o)).all (fun p => opReplicaCore o p = 0) &&
  firsts.all (fun f => decide (f + span ≤ 256)) && chains.all (fun f => f / 64 = (f + opKC o - 1) / 64) &&
  firsts.all (fun f => firsts.all fun g => f = g || decide (f + span ≤ g) || decide (g + span ≤ f)) && distinct firsts

/-- Line 2 of a streaming operation (R159). -/
def opStreamOk (o : Nat) : Bool :=
  convOk (opBConv o) && decide (opW o ≠ 0) && fld o 138 1 7 = 0 && opBAddr o % 32 = 0 && opBRow o % 32 = 0 &&
  decide (1 ≤ opKS o) && decide (1 ≤ opNS o) && decide (opKS o * opNS o ≤ 8) && fld o 161 9 7 = 0 && fld o 163 0 104 = 0 &&
  decide (1 ≤ opCoreCount o) && decide (opFirstCore o + opCoreCount o ≤ 256)

/-- Extents (R141, R142). -/
def opExtentsOk (o : Nat) : Bool :=
  let e := 128 / opW o
  let replay := (opChain o).any fun s => s.type = 6 && decide (s.threshold ≠ 0)
  let common := (List.range 4).all (fun l => decide (opTM o l ≠ 0) && decide (opTN o l ≠ 0) && decide (opTK o l ≠ 0) && mulOk (opTN o l) e) &&
    (List.range 3).all (fun l => mulOk (opTM o (l + 1)) (opTM o l) && mulOk (opTN o (l + 1)) (opTN o l) && mulOk (opTK o (l + 1)) (opTK o l)) &&
    opTM o 0 = 32 && decide (opTM o 1 * opTN o 1 ≤ if replay then 4096 else 8192) &&
    decide (opTM o 3 ≤ roundUp (opMf o) (opTM o 2)) && decide (opTN o 3 ≤ roundUp (opNf o) (opTN o 2))
  let kind := if opKind o = 0 then
      opTN o 0 = opNM o * e && opTK o 0 = opKM o * 512 && opTN o 1 = opTN o 0 && opTK o 1 = opTK o 0 &&
      opTN o 2 = opNC o * opTN o 0 && decide ((opNC o - 1) * opTN o 0 < opNf o) && decide (opNf o ≤ opTN o 2) &&
      opTK o 2 = opKC o * opTK o 0 && decide ((opKC o - 1) * opTK o 0 < opK o) && decide (opK o ≤ opTK o 2) &&
      opTN o 3 = opTN o 2 && opTK o 3 = opTK o 2
    else
      opTN o 0 = opNS o * e && opTK o 0 = opKS o * 512 && decide (opTK o 2 - opTK o 1 < opK o) && decide (opK o ≤ opTK o 2) &&
      opTK o 3 = opTK o 2
  common && kind

/-- Line 3 (R138): the spill fields only of a streaming operation. -/
def opLine3Ok (o : Nat) : Bool :=
  opOut o % 32 = 0 && opOutRow o % 32 = 0 && opStage1Off o % 32 = 0 && opStage2Off o % 64 = 0 && opHaloOff o % 64 = 0 &&
  opHaloStride o % 64 = 0 && fld o 246 6 2 = 0 && fld o 247 0 72 = 0 && decide (2 ≤ opStage1Slots o) && decide (opStage1Slots o ≤ 8) &&
  (!opWindow o || (decide (1 ≤ opHaloSlots o) && decide (opHaloSlots o ≤ 4096))) &&
  (opKind o = 0 || (opSpillOff o % 64 = 0 && opSpillStride o % 64 = 0 && decide (32 + 8 * opTM o 1 * opTN o 1 ≤ opSpillStride o)))

/-- The window (R150). -/
def opWindowOk (o : Nat) : Bool :=
  if opWindow o then
    opKind o = 0 && opHeads o = 1 && opHeadAxis o = 0 && fld o 270 0 400 = 0 && decide (1 ≤ opIH o) && decide (1 ≤ opIW o) && decide (1 ≤ opC o) &&
    decide (1 ≤ opKH o) && decide (1 ≤ opKW o) && decide (1 ≤ opSY o) && decide (1 ≤ opSX o) && decide (1 ≤ opDY o) && decide (1 ≤ opDX o) &&
    decide (1 ≤ opOH o) && decide (1 ≤ opOW o) && decide ((opM o : Int) = opOH o * opOW o) && opK o = opKH o * opKW o * opC o &&
    mulOk (opTM o 2) (opOW o).toNat
  else fld o 256 0 512 = 0

/-- Whether every run of `g` output columns, counted within each head, lies within one output block's columns (R122, R157): the columns of a
block are TN1 long. -/
def groupsFit (o g : Nat) : Bool :=
  let tn := opTN o 1
  (List.range (ceilDiv (opN o) g)).all fun i =>
    (List.range (if opHeadAxis o = 1 then opHeads o else 1)).all fun h =>
      let a := h * opN o + i * g
      let b := h * opN o + min (opN o) (i * g + g) - 1
      a / tn = b / tn

/-- One drain step (R122, R125, R126, R154, R155, R157): unused fields zero, formats and scale references allowed. -/
def stepOk (o : Nat) (s : DrainStep) : Bool :=
  let r := opSref o s.sref
  let line := fun (g entry : Nat) => decide (entry * ((if opHeadAxis o = 1 then opHeads o else 1) * ceilDiv (opN o) g) ≤ r.stride)
  let plain := s.sref = 0 && !s.perChannel && !s.dest && !s.transpose
  let floatSrc := fun (c : Nat) => c = 0x11 || c = 0x12 || c = 0x13 || c = 0x14 || c = 0x15 || c = 0x16
  !s.rsv && match s.type with
  | 0 => plain && s.arg16 = 0 && s.arg32 = 0 && s.arg64 = 0
  | 1 => s.sref = 0 && !s.dest && !s.transpose && s.arg16 = 0 && (if s.perChannel then s.arg32 = 0 else s.arg64 = 0)
  | 2 => plain && floatSrc s.arg16 && s.arg32 = 0
  | 3 => plain && floatSrc s.arg16
  | 4 => plain && s.arg16 = 0 && s.arg32 = 0 && s.arg64 % 64 = 0
  | 5 => plain && s.arg16 = 0 && decide (s.arg64 < 2 ^ 32)
  | 6 => !s.perChannel && !s.dest && !s.transpose && decide (3 ≤ s.arg16) && decide (s.arg16 ≤ 0x0C) && decide (s.arg32 < 65536) && s.arg64 = 0 &&
      decide (r.mode ≤ 3) && (r.source ≠ 2 || r.mode = 3) && (s.threshold = 0 || (r.mode = 3 && r.source = 0)) &&
      (r.mode ≠ 3 || line r.groupSize 4) && ((r.source ≠ 2 && s.threshold = 0) || groupsFit o r.groupSize)
  | 7 => !s.perChannel && !s.dest && !s.transpose && s.arg16 = 0 && s.arg32 = 0 && s.arg64 = 0 && decide (1 ≤ r.mode) && decide (r.mode ≤ 3) &&
      r.source = 0 && (r.mode ≠ 3 || (line r.groupSize 4 && groupsFit o r.groupSize)) &&
      (r.mode ≠ 2 || (r.stride % 4 = 0 && decide (4 * opNf o ≤ r.stride)))
  | 8 =>
    let c := convFmt s.arg16
    !s.perChannel && s.arg64 = 0 && convOk s.arg16 && isStoreTarget c &&
    (match fmtBlock c with
      | some (_, _, z) => r.mode = 4 && line z 1 && groupsFit o z
      | none => if (fmtInt c).isSome then decide (r.mode ≤ 3) && decide (r.source ≤ 1) && (r.mode ≠ 3 || line r.groupSize 4) else true) &&
    (if s.dest then
      let w := if isFloatOperand c then 16 else if c = 0x0E then 8 else if c = 0x10 then 4 else weightWidth 0 c
      let ks := bitsAt s.arg32 8 4
      let ns := bitsAt s.arg32 12 4
      decide (w ≠ 0) && decide (1 ≤ ks) && decide (1 ≤ ns) && decide (56 ≤ bitsAt s.arg32 0 6) && decide (bitsAt s.arg32 0 6 + ks * ns ≤ 64) &&
      bitsAt s.arg32 6 2 = 0 && bitsAt s.arg32 16 16 = 0 && (!isFloatOperand c || r.mode = 4)
    else !s.transpose && s.arg32 = 0)
  | _ => false

/-- The arrangement of the chain (R155). -/
def opChainOk (o : Nat) : Bool :=
  let ss := opSteps o
  let count := fun (t : Nat) => (ss.filter fun s => s.type = t).length
  ss.all (stepOk o) && count 8 = 1 && decide (count 6 ≤ 1) && decide (count 7 ≤ 2) &&
  ((ss.dropWhile fun s => s.type ≠ 8).drop 1).all (fun s => s.type = 0) &&
  (ss.takeWhile fun s => s.type ≠ 8).all (fun s => s.type ≠ 0) &&
  (List.range 4).all fun i => (opSref o i).ok

/-- Where the deck record may lie (R168). -/
def opDeckOk (z : Fixed) (o part : Nat) : Bool :=
  let a := opDeck o
  let n := 4160 + 8 * opTiles o
  let leads := (List.range (opDrawers o)).map (opLead o)
  a % 64 = 0 && decide (opTiles o ≤ 65536) &&
  ((List.range 4).any (fun d => decide (poolAddr d 0 ≤ a) && decide (a + n ≤ poolAddr d vaultOff) && leads.all fun l => l / 64 = d) ||
   (List.range 4).any (fun q => decide (deckHomeBase + q * 0x100000 ≤ a) && decide (a + n ≤ deckHomeBase + (q + 1) * 0x100000) &&
     z.partOfDie q = part))

/-- Every rule of a record that a dispatch finds broken as an invalid field (R9, R164). -/
def opRecordOk (z : Fixed) (o part : Nat) (deal : Bool) : Bool :=
  opLine0Ok o && (if opKind o = 0 then opResidentOk o else opStreamOk o) && decide (opW o ≠ 0) && opExtentsOk o && opWindowOk o && opAOk o &&
  opBScaleOk o && opLine3Ok o && opChainOk o && (deal || opDeckOk z o part)

end Sys2Proof.Machine
end

