-- ==== Sys2Proof/Machine/Tiles.lean ====
section
/-! DEFINITION. Sys2Proof/Machine/Tiles.lean: what a core reads for a tile: elements of A, sliding windows and halos, the load path, streaming loads of B. -/
namespace Sys2Proof.Machine

open Sys2Proof

/-- Element `i` of a run packed from `base` (R74). -/
def Dev.element (d : Dev) (width base i : Nat) : Nat :=
  if 8 ≤ width then d.peekNat (base + i * (width / 8)) (width / 8)
  else bitsAt (d.peek (base + i * width / 8)).toNat (width * (i % (8 / width))) width

/-! ### The operand A (R140, R149 to R151) -/

/-- Start of a row of A, or of input row `iy` of an image (R140, R151). -/
def rowAddr (o mf : Nat) : Nat :=
  let (bb, hm, m) := foldRow o mf
  opAAddr o + bb * opABatch o + (if opHeadAxis o = 0 then hm * opAHead o else 0) + m * opARow o

/-- Place of an element of a window: image, input row, element in the row; nothing in the padding (R151). -/
def windowPlace (o mf k : Nat) : Option (Nat × Nat × Nat) :=
  let ow := (opOW o).toNat
  let m := mf % opM o
  let iy : Int := (m / ow * opSY o + k / (opKW o * opC o) * opDY o : Nat) - (opPY o : Int)
  let ix : Int := (m % ow * opSX o + k / opC o % opKW o * opDX o : Nat) - (opPX o : Int)
  if iy < 0 ∨ (opIH o : Int) ≤ iy ∨ ix < 0 ∨ (opIW o : Int) ≤ ix then none
  else some (mf / opM o, iy.toNat, ix.toNat * opC o + k % opC o)

/-- Bytes of an input row, and of a row in a halo slot (R152). -/
def rowBytes (o : Nat) : Nat := ceilDiv ((if opWindow o then opIW o * opC o else opK o) * fmtWidth (opAFmt o)) 8
def haloRowBytes (o : Nat) : Nat := ceilDiv (opIW o * opC o * fmtWidth (opAFmt o)) 256 * 32

/-- A halo held by a gang: image, first input row, rows and data. -/
abbrev HaloData := Option (Nat × Nat × Nat × List Byte)

/-- An element of a run of bytes (R74). -/
def byteElement (width : Nat) (bytes : List Byte) (off i : Nat) : Nat :=
  if 8 ≤ width then leNat ((bytes.drop (off + i * (width / 8))).take (width / 8))
  else bitsAt (nth 0 bytes (off + i * width / 8)).toNat (width * (i % (8 / width))) width

/-- The stored code of element (m_f, k) of A; nothing where it is padding (R140, R149, R151). -/
def Dev.aElement (d : Dev) (o : Nat) (halo : HaloData) (mf k : Nat) : Option Nat :=
  if !rowValid o mf || decide (opK o ≤ k) then none
  else if opWindow o then
    match windowPlace o mf k with
    | none => none
    | some (bb, iy, e) =>
      let mem := d.element (fmtWidth (opAFmt o)) (opAAddr o + bb * opABatch o + iy * opARow o) e
      match halo with
      | some (hb, first, rows, data) =>
        if hb = bb ∧ first ≤ iy ∧ iy < first + rows then some (byteElement (fmtWidth (opAFmt o)) data ((iy - first) * haloRowBytes o) e)
        else some mem
      | none => some mem
  else some (d.element (fmtWidth (opAFmt o)) (rowAddr o mf) k)

/-- Ranges of memory that the rows `m0` to `m0 + cnt - 1` read over K from `k0` to `k1`. -/
def aRanges (o m0 cnt k0 k1 : Nat) : List (Nat × Nat) :=
  let rows := ((List.range cnt).map (m0 + ·)).filter (rowValid o)
  if opWindow o then
    let ys := rows.flatMap fun mf => (List.range (opKH o)).filterMap fun ky =>
      ((List.range (opKW o)).findSome? fun kx => windowPlace o mf ((ky * opKW o + kx) * opC o)).map (fun p => (p.1, p.2.1))
    let ys := ys.foldl (fun l p => if l.contains p then l else l ++ [p]) []
    ys.map fun p => (opAAddr o + p.1 * opABatch o + p.2 * opARow o, rowBytes o)
  else
    let w := fmtWidth (opAFmt o)
    let k1 := min k1 (opK o)
    rows.filterMap fun mf => if k1 ≤ k0 then none else some (rowAddr o mf + k0 * w / 8, ceilDiv ((k1 - k0) * w) 8)

/-- The first refused access of a list of ranges: address and status. -/
def firstUnread (z : Fixed) (d : Dev) (part : Option Nat) (l : List (Nat × Nat)) : Option (Nat × Nat) :=
  l.findSome? fun r => readStatus z d part r.1 r.2
def firstRefused (z : Fixed) (d : Dev) (part : Option Nat) (l : List (Nat × Nat)) : Option (Nat × Nat) :=
  l.findSome? fun r => rangeStatus z d part r.1 r.2

/-! ### The load path (R78, R85, R86, R88 to R90, R135) -/

/-- A staged group of 32 activations along K: its exponent byte, where the path makes one, its codes, and what it counts. -/
structure Loaded where
  exp : Nat
  vals : List Int
  counts : Counts
  deriving DecidableEq, Repr

/-- Planes and signedness of the activations in the macro (R43, R85, R91). -/
def opPlanes (o : Nat) : Nat := match opCompute o with
  | 0 => fmtPlanes (opAFmt o)
  | 1 => 12
  | 2 => 8
  | _ => 4
def opSigned (o : Nat) : Bool := match opCompute o with
  | 0 => (match fmtInt (opAFmt o) with
    | some (s, _) => s
    | none => true)
  | _ => true

/-- Mantissa width and F of the block compute formats (R80, R85). -/
def opBlockFmt (o : Nat) : Nat × Nat := if opCompute o = 2 then (8, 6) else (4, 2)

/-- Group `g` of 32 elements of a row of A as the load path makes it. A stored block's exponent comes from A_SCALE (R119). -/
def Dev.loadGroup (d : Dev) (o : Nat) (halo : HaloData) (mf g : Nat) : Loaded :=
  let raw := (List.range 32).map fun i => d.aElement o halo mf (32 * g + i)
  let inside := raw.filterMap id
  let pad := fun (l : List Int) => l ++ List.replicate (32 - l.length) 0
  let c := opAFmt o
  let rnd := convF19Rnd (opAConv o)
  let spread := fun (vals : List Int) => (raw.foldl (fun (p : List Int × List Int) x => match x, p.2 with
    | some _, v :: t => (p.1 ++ [v], t)
    | _, rest => (p.1 ++ [0], rest)) ([], vals)).1
  match opCompute o with
  | 0 => ⟨0, raw.map fun x => (x.map (intVal c)).getD 0, {}⟩
  | 1 =>
    if inside = [] then ⟨0, pad [], {}⟩ else
    let (f, k) := f19Align false (inside.map (toF19 c rnd))
    ⟨f.exp, spread f.vals, { k with flags := f19GroupFlags c rnd inside }⟩
  | _ =>
    let (mb, F) := opBlockFmt o
    if inside = [] then ⟨0, pad [], {}⟩
    else if isFloatOperand c then
      let (b, k) := blockConvert mb F 137 (inside.map fun x => unpack f19 (toF19 c rnd x))
      ⟨b.exp, spread (b.man.map (mantVal mb)), { k with flags := f19GroupFlags c rnd inside }⟩
    else
      let r := opAScale o
      let expAt := fun (j : Nat) => (d.peek (r.addr + mf * r.stride + j)).toNat
      let man := raw.map fun x => x.getD 0
      let marks := fun (E : Nat) (l : List Nat) => if E = 0xFF then markerInputs mb l else 0
      if c = 0x0E ∨ c = 0x10 then
        let E := expAt g
        ⟨E, if E = 0 then man.map fun _ => 0 else man.map (mantVal mb), { nan := marks E man }⟩
      else
        let b0 : Block := ⟨expAt (2 * g), man.take 16⟩
        let b1 : Block := if 32 * g + 16 < opK o then ⟨expAt (2 * g + 1), man.drop 16⟩ else ⟨0, List.replicate 16 0⟩
        let (b, k) := pairBlocks mb b0 b1
        ⟨b.exp, if b.exp = 0 then b.man.map fun _ => 0 else b.man.map (mantVal mb),
          { k with nan := marks b0.exp b0.man + marks b1.exp b1.man }⟩

/-- Row `mf` of A over the core's K range from `k0`, `len` long: codes, group exponents, counts. -/
def Dev.loadRow (d : Dev) (o : Nat) (halo : HaloData) (mf k0 len : Nat) : List Int × List Nat × Counts :=
  if !rowValid o mf then (List.replicate len 0, List.replicate (len / 32) 0, {})
  else
    let gs := (List.range (len / 32)).map fun g => d.loadGroup o halo mf (k0 / 32 + g)
    (gs.flatMap (·.vals), gs.map (·.exp), Counts.sum (gs.map (·.counts)))

/-! ### Halos (R151 to R153) -/

/-- The halo that deck tile `t` shares with tile `t + 1`: image, first input row and rows. -/
def haloOf (o t : Nat) : Option (Nat × Nat × Nat) :=
  let ow := (opOW o).toNat
  let m0 := t * opTM o 2
  let next := m0 + opTM o 2
  if !opWindow o || decide (opMf o ≤ next) then none
  else
    let bb := (next - 1) / opM o
    if next / opM o ≠ bb then none
    else
      let oyNext := next % opM o / ow
      let oyLast := (next - 1) % opM o / ow
      let oyFirst := if m0 / opM o = bb then m0 % opM o / ow else 0
      let lo : Int := max (max 0 ((oyNext * opSY o : Nat) - (opPY o : Int))) ((oyFirst * opSY o : Nat) - (opPY o : Int))
      let hi : Int := min ((opIH o : Int) - 1) ((oyLast * opSY o + (opKH o - 1) * opDY o : Nat) - (opPY o : Int))
      if lo ≤ hi then some (bb, lo.toNat, (hi - lo + 1).toNat) else none

/-- Device address of a halo slot. -/
def haloAddr (o t : Nat) : Nat := poolAddr (opHaloDie o) (opHaloOff o + t % opHaloSlots o * opHaloStride o)

/-- Deposit the trailing halo of tile `t` (R152, R153); the status of a refused write, if any. -/
def Dev.depositHalo (z : Fixed) (d : Dev) (fl part o t gen lead : Nat) : Dev × Nat :=
  match haloOf o t with
  | none => (d, stOK)
  | some (bb, first, rows) =>
    let a := haloAddr o t
    let L := haloRowBytes o
    match rangeStatus z d (some part) a (64 + rows * L) with
    | some (x, st) => (d.denied x st, st)
    | none =>
      let used := rowBytes o
      let data := (List.range rows).flatMap fun i =>
        d.peeks (opAAddr o + bb * opABatch o + (first + i) * opARow o) used ++ List.replicate (L - used) 0
      let d := d.store (some fl) a (leBytes 64 (t % 2 ^ 32 + gen % 2 ^ 32 * 2 ^ 32 + rows % 65536 * 2 ^ 64 + first % 65536 * 2 ^ 80))
      let d := d.store (some fl) (a + 64) data
      (d.bump (F.SEQ_CNT_HALO_DEPOSIT lead) 1, stOK)

/-! ### Streaming loads of B (R159, R160) -/

/-- The load that a level-0 tile needs, as one number: its n and k origins and, where B changes, its fold unit. -/
def loadKey (o : Nat) (t : TilePos) : Nat :=
  (t.n * 2 ^ 30 + t.k) * 2 ^ 40 + if opBChanges o then t.m / opU o else 0

/-- Address of row 0 of B for column `nf` of the fold unit that holds row `mf` (R159). -/
def bBase (o mf nf : Nat) : Nat :=
  let (bb, _, _) := foldRow o mf
  opBAddr o + bb * opBBatch o + foldHead o mf nf * opBHead o

/-- The stored code of B(k, n_f) for a fold unit; nothing beyond K or N (R149, R159). -/
def Dev.bElement (d : Dev) (o mf k nf : Nat) : Option Nat :=
  if opK o ≤ k ∨ !colValid o nf then none
  else
    let n := (foldCol o nf).2
    let w := fmtWidth (opBFmt o)
    some (if opBTrans o then d.element w (bBase o mf nf + n * opBRow o) k else d.element w (bBase o mf nf + k * opBRow o) n)

/-- Memory that a load reads. -/
def bRanges (o : Nat) (t : TilePos) : List (Nat × Nat) :=
  let w := fmtWidth (opBFmt o)
  let k1 := min (opK o) (t.k + opTK o 0)
  let cols := ((List.range (opTN o 0)).map (t.n + ·)).filter (colValid o)
  if opBTrans o then
    cols.map fun nf => (bBase o t.m nf + (foldCol o nf).2 * opBRow o + t.k * w / 8, ceilDiv ((k1 - t.k) * w) 8)
  else
    cols.flatMap fun nf => (List.range (k1 - t.k)).map fun i =>
      (bBase o t.m nf + (t.k + i) * opBRow o + (foldCol o nf).2 * w / 8, ceilDiv w 8)

/-- One group of 32 elements of a column of a load: exponent, signed magnitudes, counts (R40, R70, R81, R85, R90). -/
def Dev.loadBGroup (d : Dev) (o mf nf g : Nat) : Loaded :=
  let raw := (List.range 32).map fun i => d.bElement o mf (32 * g + i) nf
  let inside := raw.filterMap id
  let c := opBFmt o
  let w := opW o
  let fill := fun (l : List Int) => l ++ List.replicate (32 - l.length) 0
  match opCompute o with
  | 0 =>
    let lim : Int := ((2 ^ w - 1 : Nat) : Int)
    let vals := raw.map fun x => (x.map (intVal c)).getD 0
    ⟨0, vals.map fun v => max (-lim) (min lim v), { sat := (vals.filter fun v => decide (lim < v) || decide (v < -lim)).length }⟩
  | 1 =>
    if inside = [] then ⟨0, fill [], {}⟩ else
    let (f, k) := f19Align true (inside.map (toF19 c (convF19Rnd (opBConv o))))
    ⟨f.exp, fill f.vals, { k with flags := f19GroupFlags c (convF19Rnd (opBConv o)) inside }⟩
  | _ =>
    let (mb, _) := opBlockFmt o
    let r := opBScale o
    let E := (d.peek (r.addr + nf * r.stride + g)).toNat
    if inside = [] then ⟨0, fill [], {}⟩
    else ⟨E, fill (inside.map (mantVal mb)), { nan := if E = 0xFF then markerInputs mb inside else 0 }⟩

/-- A load: for each column of the load its groups along K. -/
def Dev.loadB (d : Dev) (o : Nat) (t : TilePos) : List (List Loaded) :=
  (List.range (opTN o 0)).map fun c => (List.range (opTK o 0 / 32)).map fun g => d.loadBGroup o t.m (t.n + c) (t.k / 32 + g)

/-- The 512 row images of macro (ks, ns) of a load (R40, R160). -/
def loadImages (o : Nat) (cols : List (List Loaded)) (ks ns : Nat) : List Nat :=
  let w := opW o
  let e := 128 / w
  (List.range 512).map fun r =>
    nsum ((List.range e).map fun s =>
      let col := nth [] cols (ns * e + s)
      let v := nth 0 ((nth ⟨0, [], {}⟩ col (ks * 16 + r / 32)).vals) (r % 32)
      slotCells w s (decide (v < 0)) v.natAbs)

/-- Whether the elements of a load are counted in this tile (R129). -/
def countsB (o : Nat) (t : TilePos) : Bool := if opBChanges o then t.m % opU o = 0 else t.m = 0

end Sys2Proof.Machine
end

