-- ==== Sys2Proof/Machine/Accum.lean ====
section
/-! DEFINITION. Sys2Proof/Machine/Accum.lean: chunks, promotion, the chain between cores, spill records (R106 to R117), the scale streamer (R118 to
R121). -/
namespace Sys2Proof.Machine

open Sys2Proof

/-! ### What a core works on -/

/-- A core at work: ON, and not out of service under a hold (R34). -/
def Dev.coreWorks (d : Dev) (n : Nat) : Bool := d.coreOn n && !d.bit (F.CORE_STATE_HELD n)

/-- The flight and operation record of the tile a core holds. -/
def Dev.coreOp (d : Dev) (n : Nat) : Option (Nat × Nat) :=
  match (d.coreRun n).flight with
  | none => none
  | some fl => (d.flight fl).map fun f => (fl, f.opRec)

/-- Origin of the deck tile a core holds. -/
def tileOrigin (o t : Nat) : Nat × Nat := nth (0, 0) (opTileList o) t

/-- The walk of level-1 tiles of a core (R145). -/
def coreLevel1 (o n : Nat) (r : CoreRun) : List TilePos :=
  let (m2, n2) := tileOrigin o r.tile
  let (c, kc) := opChainOf o r.drawer n
  level1 o m2 n2 c kc

/-- The level-1 tile, and the level-0 tile, that a core walks. -/
def coreT1 (o n : Nat) (r : CoreRun) : Option TilePos := (coreLevel1 o n r)[r.l1]?
def coreT0 (o n : Nat) (r : CoreRun) : Option TilePos := (coreT1 o n r).bind fun t => (level0 o t)[r.l0]?

/-- The K tiles of a level-0 tile that are walked (R147). -/
def walkedK (o : Nat) (t0 : TilePos) : List Nat := (List.range (opKTiles o)).filter fun kt => decide (t0.k + 512 * kt < opK o)

/-- Whether two level-1 tiles belong to one block: they differ only in K (R145). -/
def sameBlock (a b : TilePos) : Bool := a.m = b.m && a.n = b.n

/-- Whether a core is the head, and the tail, of its chain (R114). -/
def isHead (o n : Nat) (r : CoreRun) : Bool := opKind o = 1 || (opChainOf o r.drawer n).2 = 0
def isTail (o n : Nat) (r : CoreRun) : Bool := opKind o = 1 || (opChainOf o r.drawer n).2 + 1 = opKC o

/-- Key of an entry of the total store: row × COLS + column (R113, R116). -/
def totalKey (o row col : Nat) : Nat := row * opTN o 1 + col

/-- Entries of the total store in use: of the block in progress and of the blocks that drain (R113, R158). -/
def CoreRun.totalsUsed (r : CoreRun) : Nat := r.totals.length + nsum (r.drains.map fun b => b.totals.length)

/-- Show the total store and the chunk queue in CORE_ACC_STATUS. -/
def Dev.syncAcc (d : Dev) (n : Nat) : Dev :=
  let r := d.coreRun n
  d.puts [(F.CORE_ACC_STATUS_TOTALS_USED n, r.totalsUsed), (F.CORE_ACC_STATUS_CHUNKQ_LEVEL n, r.queue.length)]

/-- Change what a drawer of an in-flight operation holds. -/
def Dev.modDrawer (d : Dev) (fl k : Nat) (g : Drawer → Drawer) : Dev :=
  d.modFlight fl fun f => { f with drawers := tmod {} f.drawers k g }
def Dev.drawer (d : Dev) (fl k : Nat) : Drawer := ((d.flight fl).map fun f => tget {} f.drawers k).getD {}

/-- Add to the counts of the attempt in progress. -/
def Dev.addCounts (d : Dev) (fl k : Nat) (c : Counts) : Dev := d.modDrawer fl k fun w => { w with counts := w.counts.add c }

/-! ### Chunks (R107 to R109) -/

def chunkLimit : Int := 2147483647

/-- Add one macro subtotal into its chunk (R109): the chunk after it, and whether this addition was limited. -/
def OpenChunk.add (c : OpenChunk) (x : Int) : OpenChunk × Bool :=
  let sum := c.value + x
  let v := max (-chunkLimit) (min chunkLimit sum)
  ({ c with value := v, limited := c.limited || decide (v ≠ sum) }, decide (v ≠ sum))

/-- One subtotal of one output element: segment start `k`, length `g` (R108): the chunk closes at a multiple of L, at the end of the core's pass
and at the operation's last K. Returns the run and how many chunks newly saturated. -/
def CoreRun.addSubtotal (r : CoreRun) (o row col k g pend aexp bexp : Nat) (x : Int) : CoreRun × Nat :=
  let key := totalKey o row col
  let c0 := tget ⟨k, 0, false⟩ r.openChunks key
  let (c, lim) := c0.add x
  let fresh := if lim && !c0.limited then 1 else 0
  let r := if lim then { r with sat := true } else r
  if (k + g) % opL o = 0 ∨ pend ≤ k + g then
    ({ r with openChunks := terase r.openChunks key, queue := r.queue ++ [⟨row, col, c.k0, c.value, aexp, bexp⟩] }, fresh)
  else ({ r with openChunks := tset r.openChunks key c }, fresh)

/-! ### Scales and exponents (R110, R118 to R121) -/

/-- The entry that an operand's scale streamer must supply for a chunk: line and group; nothing where the operand has none, or where the load path
carries the exponent itself. The line, or channel, of a weight is its folded column n_f, where HEAD_AXIS folds heads into N: R119 names column i of N (log
entry 253: DESIGN CHOICE). -/
def scaleNeed (o operand mf nf k0 : Nat) : Option (Nat × Nat) :=
  let r := if operand = 0 then opAScale o else opBScale o
  let line := if operand = 0 then mf else nf
  if operand = 0 ∧ opCompute o ≠ 0 then none
  else if operand = 1 ∧ opCompute o = 1 ∧ opKind o = 1 then none
  else match r.mode with
    | 1 => some (0, 0)
    | 2 => some (line, 0)
    | 3 => some (line, k0 / r.groupSize)
    | 4 => some (line, k0 / 32)
    | _ => none

/-- Address and length of a scale-tensor entry (R119). -/
def scaleAddr (r : ScaleRef) (line group : Nat) : Nat × Nat :=
  match r.mode with
  | 1 => (r.addr, 4)
  | 2 => (r.addr + 4 * line, 4)
  | 3 => (r.addr + line * r.stride + 4 * group, 4)
  | _ => (r.addr + line * r.stride + group, 1)

def CoreRun.scaleOf (r : CoreRun) (operand : Nat) (need : Nat × Nat) : Option Nat :=
  (r.scales.find? fun e => e.operand = operand && e.line = need.1 && e.group = need.2).map (·.bits)

/-- The binary32 scale of an entry as a value (R110, R121). -/
def entryScale (o operand bits : Nat) : FVal :=
  let r := if operand = 0 then opAScale o else opBScale o
  if r.source = 1 then
    let q := if operand = 0 then (qmaxOf (opAFmt o)).getD 1
      else if opKind o = 0 then qmaxOfSlot (opSlot o) else (qmaxOf (opBFmt o)).getD 1
    unpack binary32 (scaleFromEntry bits q)
  else unpack binary32 bits

/-- What promotion does with a chunk: the factor F as a binary64 code, or nothing for a null group (R110, R112). -/
inductive Factor where
  | null
  | code (f : Nat) (flags : Nat)
  deriving DecidableEq, Repr

/-- The factor of a chunk from the entries of its operands (R110, R112). -/
def chunkFactor (o aexp bexp : Nat) (aEntry bEntry : Option Nat) : Factor :=
  if opCompute o = 0 then
    let sa := match aEntry with
      | some b => entryScale o 0 b
      | none => .fin false 1 0
    let sw := match bEntry with
      | some b => entryScale o 1 b
      | none => .fin false 1 0
    let p := b64Mul (toB64 sw) (toB64 sa)
    .code p.1 (if (b64 p.1).isNaN && !sa.isNaN && !sw.isNaN then flagInvalid else 0)
  else
    let ew := bEntry.getD bexp
    if ew = 0xFF ∨ aexp = 0xFF then .code b64NaN 0
    else if ew = 0 ∨ aexp = 0 then .null
    else
      let (xw, xa) : Int × Int := if opCompute o = 1 then ((ew : Int) - 142, (aexp : Int) - 137)
        else ((ew : Int) - 127 - (opBlockFmt o).2, (aexp : Int) - 127 - (opBlockFmt o).2)
      .code (toB64 (.fin false 1 (xw + xa))) 0

/-- Promotion of one chunk (R111, R112): the total after it and the flags it raises. -/
def promoteTotal (c : Int) (f t : Nat) : Nat × Nat :=
  let r := (b64Fma (toB64 (FVal.ofInt c)) f t).1
  let v := b64 r
  let ins := [b64 f, b64 t]
  (r, (if v.isNaN && !(ins.any (·.isNaN)) then flagInvalid else 0) |||
      (if v.isInf && !(ins.any fun x => x.isInf || x.isNaN) then flagOverflow else 0))

/-! ### The chain (R114, R115) -/

/-- Whether every macro the row needs has driven it, in a core at level-0 position `r.l0`. -/
def rowDriven (o n : Nat) (r : CoreRun) (row : Nat) : Bool :=
  match coreT1 o n r with
  | none => false
  | some t1 =>
    let l0s := level0 o t1
    let mine := (List.range l0s.length).filter fun i => match l0s[i]? with
      | some t => decide (t.m - t1.m ≤ row) && decide (row < t.m - t1.m + 32)
      | none => false
    mine.all fun i => decide (i < r.l0) || (i = r.l0 && match l0s[i]? with
      | some t => (walkedK o t).all fun kt => (List.range (opNCols o)).all fun nb =>
          r.driven.contains (opMacro o kt nb, row - (t.m - t1.m))
      | none => true)

/-- Whether a row has no chunk left to promote. -/
def rowSettled (o : Nat) (r : CoreRun) (row : Nat) : Bool :=
  !(r.queue.any fun c => c.row = row) && !(r.openChunks.any fun p => p.1 / opTN o 1 = row)

/-- Send a row's totals and the flag to the next core of the chain, once its last chunk has been promoted (R114). -/
def Dev.tryForward (d : Dev) (n row : Nat) : Dev :=
  let r := d.coreRun n
  match d.coreOp n, (d.coreOp n).bind fun p => coreT1 p.2 n r with
  | some (_, o), some t1 =>
    if isTail o n r || r.forwarded.contains row || !r.present.contains row || !rowValid o (t1.m + row)
        || !rowDriven o n r row || !rowSettled o r row then d
    else
      let cols := (List.range (opTN o 1)).map fun c => tget 0 r.totals (totalKey o row c)
      let d := d.modCore n fun r => { r with forwarded := row :: r.forwarded,
                                             totals := r.totals.filter fun p => p.1 / opTN o 1 ≠ row }
      (d.modCore (n + 1) fun q => { q with link := q.link ++ [⟨r.l1, row, cols, r.sat⟩] }).syncAcc n
  | _, _ => d

/-- Entries of a row, all +0: the head core's start of the row (R114). -/
def CoreRun.placeRow (r : CoreRun) (o row : Nat) : CoreRun :=
  { r with present := row :: r.present, totals := (List.range (opTN o 1)).foldl (fun t c => tset t (totalKey o row c) 0) r.totals }

/-- A row may be promoted into: it is in the total store, or its head core may place it there, for the store has the TN1 free entries that a row takes (R114,
R158). -/
def CoreRun.rowReady (r : CoreRun) (o n row : Nat) : Bool :=
  r.present.contains row || (isHead o n r && !r.needResume && decide (r.totalsUsed + opTN o 1 ≤ 8192))

/-- A core promotes the oldest chunk of an output element (R111, R114, R115, R120, R158). -/
def Dev.promote (d : Dev) (n row col : Nat) : Dev :=
  let r := d.coreRun n
  match d.coreOp n, (d.coreOp n).bind fun p => coreT1 p.2 n r, r.queue.find? fun c => c.row = row && c.col = col with
  | some (fl, o), some t1, some ch =>
    if !d.coreWorks n || !r.rowReady o n row then d else
    let na := scaleNeed o 0 (t1.m + row) (t1.n + col) ch.k0
    let nb := scaleNeed o 1 (t1.m + row) (t1.n + col) ch.k0
    let ea := na.bind (r.scaleOf 0)
    let eb := nb.bind (r.scaleOf 1)
    if (na.isSome && ea.isNone) || (nb.isSome && eb.isNone) then
      (d.put (F.CORE_ACC_STATUS_SCALE_WAIT n) 1).bump (F.CORE_CNT_SCALE_WAIT n) 1
    else
      let d := d.put (F.CORE_ACC_STATUS_SCALE_WAIT n) 0
      let d := if r.present.contains row then d else d.modCore n fun r => r.placeRow o row
      let key := totalKey o row col
      let d := match chunkFactor o ch.aexp ch.bexp ea eb with
        | .null => d.modCore n fun r => { r with queue := r.queue.erase ch }
        | .code f flags =>
          let (t, k) := promoteTotal ch.value f (tget 0 (d.coreRun n).totals key)
          let d := d.modCore n fun r => { r with queue := r.queue.erase ch, totals := tset r.totals key t }
          (d.addCounts fl r.drawer { flags := flags ||| k }).bump (F.CORE_CNT_CHUNKS n) 1
      (d.syncAcc n).tryForward n row
  | _, _, _ => d

/-- CHUNK_PROMOTE (R111). -/
def execChunkPromote (n : Fin 256) (row col : Nat) (s : State) : Host.Outcome State Fault Refusal :=
  s.upd fun _ d => d.promote n.val row col

/-! ### Neighbour links (R21, R22) -/

/-- Stops and direction from physical core `a` to `b` on the ring of 66 stops: the direction with fewer stops, increasing on a tie (R21). -/
def linkPath (a b : Nat) : Nat × Nat :=
  let up := (b + 66 - a) % 66 - 1
  let down := (a + 66 - b) % 66 - 1
  if up ≤ down then (up, 0) else (down, 1)

/-- Whether a path of `stops` stops from `a` in direction `dir` crosses the segment between stops `seg` and `seg + 1`. -/
def pathCrosses (a stops dir seg : Nat) : Bool :=
  (List.range (stops + 1)).any fun i => (if dir = 0 then (a + i) % 66 else (a + 65 - i) % 66) = seg

/-- Whether such a path crosses a part: a segment, or a stop between its ends. -/
def linkPartCrossed (x : LinkPart) (a stops dir : Nat) : Bool :=
  match x with
  | .segment i _ => pathCrosses a stops dir i.val
  | .stop i _ => (List.range stops).any fun k => (if dir = 0 then (a + 1 + k) % 66 else (a + 65 - k) % 66) = i.val

/-- Take one neighbour path of core `n`, to core `q`, the other way round where it crosses a failed part (R22): the path is counted as rerouted. A path of no
intermediate stops becomes one of 64, which the 6-bit field holds as 0, and a path already rerouted stays where both ways have failed (log entry 244: DESIGN
CHOICE). -/
def Dev.reroutePath (d : Dev) (n q : Nat) (stops dir : Nat → Fld) (x : LinkPart) : Dev :=
  let p := d.get (F.CORE_ID_PHYSICAL n)
  let short := linkPath p (d.get (F.CORE_ID_PHYSICAL q))
  if (d.get (stops n), d.get (dir n)) = short && linkPartCrossed x p short.1 short.2 then
    let d := d.puts [(stops n, 64 - short.1), (dir n, 1 - short.2), (F.CORE_LINK_REROUTED n, 1)]
    { d with hlt := { d.hlt with reroutes := d.hlt.reroutes + 1 } }
  else d

/-- Take the neighbour traffic of a die that crosses a failed part the other way (R22). -/
def Dev.reroute (d : Dev) (die : Nat) (x : LinkPart) : Dev :=
  (List.range 63).foldl (fun d i =>
    let a := 64 * die + i
    (d.reroutePath a (a + 1) F.CORE_LINK_NEXT_STOPS F.CORE_LINK_NEXT_DIR x).reroutePath (a + 1) a F.CORE_LINK_PREV_STOPS F.CORE_LINK_PREV_DIR x) d

/-- Stop or segment number of a part, and the direction of the transfer that failed there. -/
def linkPartPlace : LinkPart → Nat × Nat
  | .segment i dir => (i.val, dir.val)
  | .stop i dir => (i.val, dir.val)

/-- A transfer check failed in a part of a die's neighbour links, twice in a row if `lasting` (R22, R396, R397). -/
def Dev.linkFault (d : Dev) (die : Nat) (x : LinkPart) (lasting : Bool) : Dev :=
  let d := if lasting then
      let d := { d with hlt := { d.hlt with linkFails := (die, x) :: d.hlt.linkFails } }
      (d.reroute die x).tell 5 3 (die * 66 + (linkPartPlace x).1) else d
  d.failRec { unit := 7, cls := if lasting then clsLasting else clsTransient, source := 9, action := if lasting then 9 else 1,
              die := die, index := (linkPartPlace x).1, sub := (linkPartPlace x).2 }

/-- A row's totals arrive at the next core of the chain (R114), which takes them in unless it is held (R34). A transfer check that failed on the way names its part and
whether it failed twice (R22). -/
def Dev.totalsArrive (d : Dev) (n : Nat) (faultAt : Option (LinkPart × Bool)) : Dev :=
  let d := match faultAt with
    | none => d
    | some (x, lasting) => d.linkFault (n / 64) x lasting
  let r := d.coreRun n
  match d.coreOp n, r.link with
  | some (_, o), l :: rest =>
    if l.block ≠ r.l1 ∨ r.walked ∨ ¬ d.coreWorks n ∨ 8192 < r.totalsUsed + l.totals.length then d else
    let d := d.modCore n fun r => { r with
      link := rest, present := l.row :: r.present, sat := r.sat || l.sat,
      totals := (List.range l.totals.length).foldl (fun t c => tset t (totalKey o l.row c) (nth 0 l.totals c)) r.totals }
    (d.syncAcc n).tryForward n l.row
  | _, _ => d

/-- TOTALS_ARRIVE (R22, R114). -/
def execTotalsArrive (n : Fin 256) (faultAt : Option (LinkPart × Bool)) (s : State) : Host.Outcome State Fault Refusal :=
  s.upd fun _ d => d.totalsArrive n.val faultAt

/-! ### Spill records (R116, R117, R146) -/

/-- Address of the spill record of the block of a level-1 tile in a core (R146). An offset past the 512 KiB of the scratchpad is added to its base like any other,
so that such a record lies in the scratchpad of a later core, where the access rules decide (log entry 254: DESIGN CHOICE). -/
def spillAddr (o n m2 n2 : Nat) (t : TilePos) : Nat :=
  let nb := opTN o 2 / opTN o 1
  let b := (t.m - m2) / opTM o 1 * nb + (t.n - n2) / opTN o 1
  let B := opTM o 2 / opTM o 1 * nb
  if opSpillPool o then poolAddr (n / 64) (opSpillOff o + (n % 64 * B + b) * opSpillStride o)
  else scratchAddr n (opSpillOff o + b * opSpillStride o)

/-- The header of a spill record as a number of 32 bytes (R116). -/
def spillHeader (tile kNext rows cols : Nat) (sat : Bool) (gen : Nat) : Nat :=
  tile % 2 ^ 32 + kNext % 2 ^ 32 * 2 ^ 32 + rows % 65536 * 2 ^ 64 + cols % 65536 * 2 ^ 80 + b01 sat * 2 ^ 96 + gen % 2 ^ 32 * 2 ^ 128

/-- Bytes of a spill record. -/
def spillBytes (o : Nat) : Nat := 32 + 8 * opTM o 1 * opTN o 1

/-- Write the block in progress of a core as a spill record (R116). -/
def Dev.spill (d : Dev) (fl o n : Nat) (t : TilePos) : Dev :=
  let r := d.coreRun n
  let (m2, n2) := tileOrigin o r.tile
  let a := spillAddr o n m2 n2 t
  let cells := (List.range (opTM o 1 * opTN o 1)).flatMap fun i => leBytes 8 (tget 0 r.totals i)
  let d := d.store (some fl) a (leBytes 32 (spillHeader r.tile (passEnd o t) (opTM o 1) (opTN o 1) r.sat r.gen) ++ cells)
  d.bump (F.CORE_CNT_SPILLS n) 1

end Sys2Proof.Machine
end

