-- ==== Sys2Proof/Machine/Drain.lean ====
section
/-! DEFINITION. Sys2Proof/Machine/Drain.lean: the drain chain of an output block (R154 to R158), output scales (R122 to R125), statistics taps (R126), the
range monitor (R413, R414). -/
namespace Sys2Proof.Machine

open Sys2Proof

/-- An element in the drain: row and column in the block, and its binary64 value. -/
structure DrainElem where
  row : Nat
  col : Nat
  x : Nat
  deriving DecidableEq, Repr

/-- What a chain has produced so far: its elements, counts, statistics (tap, index, entry), writes, saturated elements of its requantise
step, zero entries met, the row images of a bank destination, and the status that ends the operation. -/
structure DrainOut where
  xs : List DrainElem
  counts : Counts := {}
  stats : List (Nat × Nat × Nat) := []
  writes : List TileWrite := []
  reqSat : Nat := 0
  zeros : List Nat := []
  images : List (Nat × List Nat) := []
  reads : List (Nat × Nat) := []
  status : Nat := 0
  deriving DecidableEq, Repr

def widen32 (x : Nat) : Nat := toB64 (unpack binary32 x)

/-- A value of a drain step widened to binary64: a signalling NaN raises invalid (R95, R96). -/
def widened (v : FVal) : B64 := (toB64 v, if v.isSignalling then flagInvalid else 0)

/-- A binary64 operation on an element and a widened operand, with the flags of both. -/
def withWide (op : Nat → Nat → B64) (x : Nat) (v : FVal) : B64 :=
  let w := widened v
  let r := op x w.1
  (r.1, r.2 ||| w.2)

/-- minimumNumber(maximumNumber(x, lo), hi) (R99, R155). -/
def clampStep (lo hi : FVal) (x : Nat) : B64 :=
  let a := withWide (b64MinMax true) x lo
  let b := withWide (b64MinMax false) a.1 hi
  (b.1, a.2 ||| b.2)

/-- The invalid flag that signalling NaNs among the values of a statistics tap raise (R96, R99). -/
def signallingFlag (xs : List Nat) : Nat := if xs.any fun x => (b64 x).isSignalling then flagInvalid else 0

/-- Apply a binary64 operation to every element, gathering flags. -/
def DrainOut.map64 (s : DrainOut) (f : DrainElem → B64) : DrainOut :=
  let rs := s.xs.map fun e => (e, f e)
  { s with xs := rs.map fun p => { p.1 with x := p.2.1 },
           counts := s.counts.add { flags := rs.foldl (fun a p => a ||| p.2.2) 0 } }

/-- Group index of folded column `nf` for groups of `g` columns within each head (R119). -/
def outGroup (o nf g : Nat) : Nat := (foldCol o nf).1 * ceilDiv (opN o) g + (foldCol o nf).2 / g

/-- Address of the entry of an output scale or statistics reference for an element (R119). -/
def outEntryAddr (o : Nat) (r : ScaleRef) (mf nf : Nat) : Nat :=
  match r.mode with
  | 1 => r.addr
  | 2 => r.addr + 4 * nf
  | _ => r.addr + mf * r.stride + 4 * outGroup o nf r.groupSize

/-- MAXABS and NONFINITE of a set of values (R126), as a statistics entry. -/
def statsEntry (xs : List Nat) : Nat :=
  let vs := xs.map b64
  let mx := vs.foldl (fun (a : FVal) v => if v.isNaN || v.isInf then a else FVal.maxAbs a v) (.fin false 0 0)
  let p := (pack binary32 .rup false mx).code
  let past := (unpack binary32 p).isInf
  (if past then 0x7F7FFFFF else p) + if past || vs.any (·.isInf) then 2 ^ 31 else 0

/-- The larger MAXABS and the OR of NONFINITE (R127). -/
def mergeEntry (a b : Nat) : Nat := max (a % 2 ^ 31) (b % 2 ^ 31) + (if a / 2 ^ 31 % 2 = 1 ∨ b / 2 ^ 31 % 2 = 1 then 2 ^ 31 else 0)

/-- Distinct keys of a list, in order of first appearance. -/
def distinctKeys : List Nat → List Nat
  | [] => []
  | k :: t => k :: (distinctKeys t).filter (· ≠ k)

/-- The elements split by a key. -/
def groupElems (key : DrainElem → Nat) (xs : List DrainElem) : List (Nat × List DrainElem) :=
  (distinctKeys (xs.map key)).map fun k => (k, xs.filter fun e => key e = k)

/-- Quantise every element with the scales of a reference (R101, R122 to R124): codes, counts, entries written, zero entries met. -/
def quantiseAll (d : Dev) (o m0 n0 : Nat) (r : ScaleRef) (source fmt : Nat) (xs : List DrainElem) :
    List (DrainElem × Int × Cls) × Nat × List TileWrite × List Nat :=
  let (sg, b) := (fmtInt fmt).getD (true, 8)
  let qmax := (qmaxOf fmt).getD 1
  if r.mode = 0 then (xs.map fun e => (e, quantise sg b e.x (.fin false 1 0)), 0, [], [])
  else if source = 2 then
    let gs := groupElems (fun e => outEntryAddr o r (m0 + e.row) (n0 + e.col)) xs
    let done := gs.map fun g =>
      let mx := g.2.foldl (fun (a : FVal) e => let v := b64 e.x
        if v.isNaN || v.isInf then a else FVal.maxAbs a v) (.fin false 0 0)
      let s := scaleFromMax mx qmax
      (g.2.map fun e => (e, quantise sg b e.x (unpack binary32 s)), if mx.isZero then 1 else 0, (⟨g.1, 0, 32, [s]⟩ : TileWrite))
    (done.flatMap (·.1), nsum (done.map (·.2.1)), done.map (·.2.2), [])
  else
    let entry := fun (e : DrainElem) => outEntryAddr o r (m0 + e.row) (n0 + e.col)
    let scale := fun (e : DrainElem) => let w := d.peekNat (entry e) 4
      if source = 1 then unpack binary32 (scaleFromEntry w qmax) else unpack binary32 w
    let zs := if source = 1 then (distinctKeys (xs.map entry)).filter fun a => d.peekNat a 4 % 2 ^ 31 = 0 else []
    (xs.map fun e => (e, quantise sg b e.x (scale e)), 0, [], zs)

/-- Counts of a list of classes. -/
def clsCounts (l : List Cls) : Counts := Counts.sum (l.map Counts.ofCls)

/-- A piecewise function from a table (R156). Its comparisons raise no flag (log entry 246: DEDUCED). -/
def activation (table x : Nat) : B64 :=
  let v := b64 x
  if v.isNaN then widened v
  else
    let i := ((List.range 63).filter fun k => FVal.le (unpack binary32 (fld table (4 * k) 0 32)) v).length
    let a := fld table (256 + 8 * i) 0 32
    let c := fld table (260 + 8 * i) 0 32
    let wa := widened (unpack binary32 a)
    let wc := widened (unpack binary32 c)
    if (unpack binary32 a).isZero then wc
    else
      let r := b64Fma wa.1 x wc.1
      (r.1, r.2 ||| wa.2 ||| wc.2)

/-- Read of drain-step data: a range that must be readable. -/
def DrainOut.needs (s : DrainOut) (z : Fixed) (d : Dev) (part : Nat) (l : List (Nat × Nat)) : DrainOut :=
  match firstUnread z d (some part) l with
  | some (a, st) => { s with status := st, xs := [], reads := [(a, 1)] }
  | none => { s with reads := s.reads ++ l }

/-- Consecutive elements of an output row within one head, as one write (R140, R154). -/
def rowWrites (o m0 n0 width : Nat) (base : Nat → Nat → Nat → Nat) (cs : List (DrainElem × Nat)) : List TileWrite :=
  (distinctKeys (cs.map fun p => p.1.row * 65536 + foldHead o (m0 + p.1.row) (n0 + p.1.col))).filterMap fun k =>
    let mine := cs.filter fun p => p.1.row * 65536 + foldHead o (m0 + p.1.row) (n0 + p.1.col) = k
    match mine with
    | [] => none
    | (e, _) :: _ =>
      let (bb, _, m) := foldRow o (m0 + e.row)
      let h := k % 65536
      let n := (foldCol o (n0 + e.col)).2
      let bits := n * width
      some ⟨base bb h m + bits / 8, bits % 8, width, mine.map (·.2)⟩

/-- The row images of a KS × NS load that a drain writes into its own streaming macros (R161): element (row, column) of the block stands at
K = row and N = column, or with TRANSPOSE at K = column and N = row. -/
def bankImages (w ks ns : Nat) (transpose : Bool) (vals : List (DrainElem × Int)) : List (Nat × List Nat) :=
  let e := 128 / w
  let kOf := fun (x : DrainElem) => if transpose then x.col else x.row
  let nOf := fun (x : DrainElem) => if transpose then x.row else x.col
  (List.range ks).flatMap fun a => (List.range ns).map fun b =>
    (a * ns + b, (List.range 512).map fun r =>
      nsum ((vals.filter fun p => kOf p.1 = a * 512 + r && nOf p.1 / e = b).map fun p =>
        slotCells w (nOf p.1 % e) (decide (p.2 < 0)) (min p.2.natAbs (2 ^ w - 1))))

/-- What OUTPUT makes of a block: each element with its code (a negative code only as a bank value), the shared-exponent or scale writes,
the counts, and the zero scale entries met. -/
structure OutCodes where
  codes : List (DrainElem × Nat)
  vals : List (DrainElem × Int)
  writes : List TileWrite := []
  counts : Counts := {}
  zeros : List Nat := []

/-- OUTPUT to a block format: each group of elements sharing an exponent (R102). -/
def outBlock (o m0 n0 : Nat) (arg mb zlen : Nat) (r : ScaleRef) (xs : List DrainElem) : OutCodes :=
  let key := fun (e : DrainElem) => (m0 + e.row) * 2 ^ 40 + outGroup o (n0 + e.col) zlen
  (groupElems key xs).foldl (fun (a : OutCodes) (g : Nat × List DrainElem) =>
    let c : Block × Counts := convertBlock arg (g.2.map fun e => e.x)
    let cs : List (DrainElem × Nat) := (List.range g.2.length).map fun i => (nth ⟨0, 0, 0⟩ g.2 i, nth 0 c.1.man i)
    { codes := a.codes ++ cs, vals := a.vals ++ cs.map (fun p => (p.1, mantVal mb p.2)),
      writes := a.writes ++ [⟨r.addr + g.1 / 2 ^ 40 * r.stride + g.1 % 2 ^ 40, 0, 8, [c.1.exp]⟩], counts := a.counts.add c.2 })
    { codes := [], vals := [] }

/-- OUTPUT to an integer format (R101, R122 to R124). -/
def outInt (d : Dev) (o m0 n0 c : Nat) (r : ScaleRef) (xs : List DrainElem) : OutCodes :=
  let q := quantiseAll d o m0 n0 r r.source c xs
  { codes := q.1.map (fun p => (p.1, intCode c p.2.1)), vals := q.1.map (fun p => (p.1, p.2.1)), writes := q.2.2.1,
    counts := (clsCounts (q.1.map fun p => p.2.2)).add { nulls := q.2.1 }, zeros := q.2.2.2 }

/-- OUTPUT to a float format (R98). -/
def outFloat (arg : Nat) (xs : List DrainElem) : OutCodes :=
  let cs := xs.map fun e => (e, convertElem arg e.x (.fin false 1 0))
  { codes := cs.map (fun p => (p.1, p.2.code)), vals := [],
    counts := (clsCounts (cs.map fun p => p.2.cls)).add { flags := cs.foldl (fun a p => a ||| p.2.flags) 0 } }

/-- OUTPUT of a float into streaming macros: each element converted once from binary64 into F19, then aligned with a shared exponent for each 32 elements along K
(R90, R102, R103, R161). F19 has no format code: every float code of the conversion control word names it here (log entry 247: DESIGN CHOICE). -/
def outF19 (o m0 n0 arg : Nat) (r : ScaleRef) (transpose : Bool) (xs : List DrainElem) : OutCodes :=
  let cs := xs.map fun e => storeF19 arg e.x
  let base : OutCodes := { codes := [], vals := [], counts := (clsCounts (cs.map (·.cls))).add { flags := cs.foldl (fun a c => a ||| c.flags) 0 } }
  let key := fun (e : DrainElem) => if transpose then (m0 + e.row) * 2 ^ 40 + outGroup o (n0 + e.col) 32
    else (n0 + e.col) * 2 ^ 40 + (m0 + e.row) / 32
  (groupElems key xs).foldl (fun (a : OutCodes) (g : Nat × List DrainElem) =>
    let c : F19Group × Counts := f19Align true (g.2.map fun e => (storeF19 arg e.x).code)
    { a with vals := a.vals ++ (List.range g.2.length).map (fun i => (nth ⟨0, 0, 0⟩ g.2 i, nth 0 c.1.vals i)),
             writes := a.writes ++ [⟨r.addr + g.1 / 2 ^ 40 * r.stride + g.1 % 2 ^ 40, 0, 8, [c.1.exp]⟩],
             counts := a.counts.add { c.2 with nan := 0 } }) base

/-- OUTPUT (R102, R103, R122, R157, R161). -/
def outputStep (z : Fixed) (d : Dev) (o part m0 n0 : Nat) (st : DrainStep) (s : DrainOut) : DrainOut :=
  let c := convFmt st.arg16
  let r := opSref o st.sref
  let outBase := fun (bb h m : Nat) => opOut o + bb * opOutBatch o + h * opOutHead o + m * opOutRow o
  let ks := bitsAt st.arg32 8 4
  let ns := bitsAt st.arg32 12 4
  let finish := fun (s : DrainOut) (w : Nat) (x : OutCodes) =>
    let s : DrainOut := { s with counts := s.counts.add x.counts, writes := s.writes ++ x.writes, zeros := s.zeros ++ x.zeros }
    if st.dest then { s with images := bankImages w ks ns st.transpose x.vals }
    else { s with writes := s.writes ++ rowWrites o m0 n0 (fmtWidth c) outBase x.codes }
  match fmtBlock c with
  | some (mb, _, zlen) => finish s mb (outBlock o m0 n0 st.arg16 mb zlen r s.xs)
  | none =>
    match fmtInt c with
    | some _ =>
      let s := if r.mode = 0 then s else s.needs z d part (s.xs.map fun e => (outEntryAddr o r (m0 + e.row) (n0 + e.col), 4))
      finish s (weightWidth 0 c) (outInt d o m0 n0 c r s.xs)
    | none => finish s 16 (if st.dest then outF19 o m0 n0 st.arg16 r st.transpose s.xs else outFloat st.arg16 s.xs)

/-- One step of the chain on every valid element of a block (R154 to R157). `k` is its index, `replay` selects SOURCE 2 (R125). -/
def drainStep (z : Fixed) (d : Dev) (f : Flight) (m0 n0 : Nat) (replay : Bool) (k : Nat) (st : DrainStep) (s : DrainOut) : DrainOut :=
  let o := f.opRec
  let part := f.partition
  let nfOf := fun (e : DrainElem) => n0 + e.col
  let mfOf := fun (e : DrainElem) => m0 + e.row
  if s.status ≠ stOK then s else
  match st.type with
  | 1 =>
    if st.perChannel then
      let s := s.needs z d part (s.xs.map fun e => (st.arg64 + 4 * nfOf e, 4))
      s.map64 fun e => withWide b64Mul e.x (unpack binary32 (d.peekNat (st.arg64 + 4 * nfOf e) 4))
    else s.map64 fun e => withWide b64Mul e.x (unpack binary32 st.arg32)
  | 2 =>
    let w := fmtWidth st.arg16
    let s := s.needs z d part (s.xs.map fun e => (st.arg64 + nfOf e * w / 8, w / 8))
    s.map64 fun e => withWide b64Add e.x (floatVal st.arg16 (d.element w st.arg64 (nfOf e)))
  | 3 =>
    let w := fmtWidth st.arg16
    let row := fun (e : DrainElem) =>
      let (bb, _, m) := foldRow o (mfOf e)
      st.arg64 + bb * opOutBatch o + foldHead o (mfOf e) (nfOf e) * opOutHead o + m * st.arg32
    let s := s.needs z d part (s.xs.map fun e => (row e + (foldCol o (nfOf e)).2 * w / 8, w / 8))
    s.map64 fun e => withWide b64Add e.x (floatVal st.arg16 (d.element w (row e) (foldCol o (nfOf e)).2))
  | 4 => s.map64 fun e => activation (tget 0 f.tables k) e.x
  | 5 =>
    let nans := (s.xs.filter fun e => (b64 e.x).isNaN).length
    let s := s.map64 fun e => clampStep (unpack binary32 st.arg32) (unpack binary32 (st.arg64 % 2 ^ 32)) e.x
    { s with counts := s.counts.add { nan := nans } }
  | 6 =>
    let r := opSref o st.sref
    let source := if replay then 2 else r.source
    let s := if r.mode = 0 ∨ source = 2 then s else s.needs z d part (s.xs.map fun e => (outEntryAddr o r (mfOf e) (nfOf e), 4))
    let (qs, nulls, ws, zs) := quantiseAll d o m0 n0 r source st.arg16 s.xs
    let k := clsCounts (qs.map (·.2.2))
    { s with xs := qs.map fun q => { q.1 with x := toB64 (FVal.ofInt q.2.1) }, counts := (s.counts.add k).add { nulls := nulls },
             writes := s.writes ++ ws, reqSat := s.reqSat + k.sat, zeros := s.zeros ++ zs }
  | 7 =>
    let r := opSref o st.sref
    let nans := (s.xs.filter fun e => (b64 e.x).isNaN).length
    let s : DrainOut := { s with counts := s.counts.add { nan := nans, flags := signallingFlag (s.xs.map fun e => e.x) } }
    match r.mode with
    | 3 =>
      let gs := groupElems (fun e => outEntryAddr o r (mfOf e) (nfOf e)) s.xs
      { s with writes := s.writes ++ gs.map fun g => ⟨g.1, 0, 32, [statsEntry (g.2.map (·.x))]⟩ }
    | 2 => { s with stats := s.stats ++ (groupElems nfOf s.xs).map fun g => (k, g.1, statsEntry (g.2.map (·.x))) }
    | _ => { s with stats := s.stats ++ [(k, 0, statsEntry (s.xs.map (·.x)))] }
  | 8 => outputStep z d o part m0 n0 st s
  | _ => s

/-- The valid elements of a block (R149). -/
def blockElems (o : Nat) (b : DrainBlock) : List DrainElem :=
  (List.range (opTM o 1)).flatMap fun i => if rowValid o (b.m + i) then
    (List.range (opTN o 1)).filterMap fun j => if colValid o (b.n + j) then some ⟨i, j, tget 0 b.totals (totalKey o i j)⟩ else none
    else []

/-- The whole chain on a block. -/
def drainChain (z : Fixed) (d : Dev) (f : Flight) (b : DrainBlock) (replay : Bool) : DrainOut :=
  let o := f.opRec
  (List.range (opChain o).length).foldl (fun s k => drainStep z d f b.m b.n replay k (opStep o k) s) { xs := blockElems o b }

/-- The replay threshold of an operation's chain: 0 where none (R125). -/
def opThreshold (o : Nat) : Nat := (((opChain o).find? fun s => s.type = 6).map (·.threshold)).getD 0

/-! ### The range monitor (R413, R414) -/

/-- What the monitor takes of a block: an exponent, or a class. -/
inductive RangeClass where
  | exp (e : Int)
  | zero
  | nonFinite
  deriving DecidableEq, Repr

def rangeClass (xs : List Nat) : RangeClass :=
  let vs := xs.map b64
  if vs.any fun v => v.isNaN || v.isInf then .nonFinite
  else
    let mx := xs.foldl (fun a x => max a (x % 2 ^ 63)) 0
    if mx = 0 then .zero else .exp ((max 1 (mx / 2 ^ 52) : Nat) - 1023)

/-- Raise an alarm: the event, the count, and a lasting failure of a joined job where JOB_ACTION asks for it (R414). -/
def Dev.alarm (d : Dev) : Dev :=
  let d := ((d.bump F.HLT_CNT_ALARMS 1).hltEvent F.HLT_EVENT_ALARM).put F.HLT_CHECK_STATUS_ALARM_ACTIVE 1
  if d.bit F.HLT_CHECK_CFG_JOB_ACTION then { d with hlt := { d.hlt with alarmJob := true } } else d

/-- An alarm that names cores: a record, and targeted slices of every macro of each (R413, R414). -/
def Dev.alarmCores (d : Dev) (cores : List Nat) : Dev :=
  let d := d.alarm
  cores.foldl (fun d n =>
    let d := (List.range 64).foldl (fun d m => d.askSlice n m) d
    d.failRec { unit := 8, cls := clsAlarm, source := 7, action := 0xA, die := n / 64, index := d.get (F.CORE_ID_PHYSICAL n), logical := n }) d

/-- Whether a learned envelope makes a block an outlier (R413). -/
def Envelope.outlier (e : Envelope) (margin : Nat) : RangeClass → Bool
  | .zero => !e.zero
  | .nonFinite => !e.nonFinite
  | .exp x => match e.lo, e.hi with
    | some lo, some hi => decide (x < lo - margin) || decide (hi + margin < x)
    | _, _ => true

/-- Learn a block. -/
def Envelope.learn (e : Envelope) (c : RangeClass) : Envelope :=
  let e := { e with learned := e.learned + 1 }
  match c with
  | .zero => { e with zero := true }
  | .nonFinite => { e with nonFinite := true }
  | .exp x => { e with lo := some (min (e.lo.getD x) x), hi := some (max (e.hi.getD x) x) }

/-- The monitor sees a drained block of a resident operation; `chain` holds the cores of its chain (R413). -/
def Dev.monitor (d : Dev) (part wsid : Nat) (chain : List Nat) (xs : List Nat) : Dev :=
  if d.get F.HLT_CHECK_STATUS_MODE_EFF % 2 = 0 then d else
  let d := d.bump F.HLT_CNT_RANGE_BLOCKS 1
  let c := rangeClass xs
  let es := d.hlt.envelopes
  let e := (es.find? fun e => e.part = part && e.wsid = wsid).getD { part := part, wsid := wsid }
  let rest := es.filter fun e => !(e.part = part && e.wsid = wsid)
  let rest := if rest.length < 1024 then rest else rest.drop 1
  let keep := fun (d : Dev) (e : Envelope) =>
    Dev.put { d with hlt := { d.hlt with envelopes := rest ++ [e] } } F.HLT_CHECK_STATUS_TRACKED (rest.length + 1)
  if e.learned < 2 ^ d.get F.HLT_CHECK_CFG_LEARN_LOG2 then keep d (e.learn c)
  else
    let out := e.outlier (d.get F.HLT_CHECK_CFG_MARGIN) c
    let recent := ((out, chain.headD 0) :: e.recent).take 256
    let d := if out then d.bump F.HLT_CNT_OUTLIERS 1 else d
    let same := (recent.filter fun p => p.1 && p.2 = chain.headD 0).length
    if out ∧ max 1 (d.get F.HLT_CHECK_CFG_ALARM_COUNT) ≤ same then (keep d { e with recent := [] }).alarmCores chain
    else keep d { e with recent := recent }

end Sys2Proof.Machine
end

