-- ==== Sys2Proof/Machine/Matrix.lean ====
section
/-! DEFINITION. Sys2Proof/Machine/Matrix.lean: the walk of a deck tile in its cores (R145 to R149, R160): staging, vectors, streaming loads, the
end of passes, spills, drains, replays, and how an operation ends. -/
namespace Sys2Proof.Machine

open Sys2Proof

/-! ### Gangs (R166, R180) -/

/-- A core that may take part in an operation: ON and out of level-0-only mode (R164, R180). -/
def Dev.coreReady (d : Dev) (n : Nat) : Bool := d.coreOn n && d.get (F.SEQ_MODE_L0_ONLY n) = 0
def Dev.gangWhole (d : Dev) (o dr : Nat) : Bool := (opCores o dr).all d.coreReady
def Dev.gangHeld (d : Dev) (o dr : Nat) : Bool := (opCores o dr).any fun n => d.bit (F.CORE_STATE_HELD n)

/-- The macros of a core that an operation uses: those of its K tiles that are walked (R147, R148, R160). -/
def opMacros (o dr n : Nat) : List Nat :=
  let kc := (opChainOf o dr n).2
  ((List.range (opKTiles o)).filter fun kt => decide (kc * opTK o 0 + 512 * kt < opK o)).flatMap fun kt =>
    (List.range (opNCols o)).map fun nb => opMacro o kt nb

/-- The gang of a drawer enters, or leaves, bank order in every macro it uses (R60). -/
def Dev.enterGang (d : Dev) (fl o dr : Nat) : Dev :=
  (opCores o dr).foldl (fun d n => (opMacros o dr n).foldl (fun d m =>
    if (d.macroRun n m).order.contains (.op fl) then d else d.enterOrder n m (.op fl)) d) d
def Dev.leaveGang (d : Dev) (fl o dr : Nat) : Dev :=
  (opCores o dr).foldl (fun d n => (opMacros o dr n).foldl (fun d m => d.leaveOrder n m fl) d) d

/-- The first operation of a bank order. -/
def firstOp : List OrderItem → Option Nat
  | [] => none
  | .op fl :: _ => some fl
  | .swap _ _ _ :: t => firstOp t

/-- Whether no other operation stands before this one in any macro of a gang. -/
def Dev.gangFirst (d : Dev) (fl o dr : Nat) : Bool :=
  (opCores o dr).all fun n => (opMacros o dr n).all fun m => match firstOp (d.macroRun n m).order with
    | some x => x = fl
    | none => true

/-! ### A core takes and lets go of a tile -/

/-- Show the position of a core's walk in SEQ_TILE. -/
def Dev.syncSeq (d : Dev) (n : Nat) : Dev :=
  let r := d.coreRun n
  d.puts [(F.SEQ_TILE_L1_INDEX n, r.l1), (F.SEQ_TILE_L0_INDEX n, r.l0)]

/-- The core holds no tile: what it held is dropped; its streaming loads and the planes of the tile stay known (R160, R383). A waiting change
of L0_ONLY takes effect (R162). -/
def Dev.freeCore (d : Dev) (n : Nat) : Dev :=
  let r := d.coreRun n
  let d := d.modCore n fun r => { loadActive := r.loadActive, loadReady := r.loadReady, loadWriting := r.loadWriting, loadSwap := r.loadSwap,
                                  loadLeft := r.loadLeft, loads := r.loads, loadOf := r.loadOf, prevPlanes := r.planes, prevFull := r.full }
  let d := d.puts ([(F.SEQ_MODE_BUSY n, 0), (F.SEQ_OP_OPREC n, 0), (F.SEQ_TILE_TILE n, 0xFFFFFFFF), (F.SEQ_TILE_L1_INDEX n, 0),
    (F.SEQ_TILE_L0_INDEX n, 0), (F.SEQ_ORDER_ORDER0 n, 0), (F.SEQ_ORDER_ORDER1 n, 0), (F.SEQ_ORDER_ORDER2 n, 0), (F.SEQ_ORDER_ORDER3 n, 0),
    (F.CORE_ACC_STATUS_TOTALS_USED n, 0), (F.CORE_ACC_STATUS_HALVED n, 0), (F.CORE_ACC_STATUS_CHAIN_WAIT n, 0),
    (F.CORE_ACC_STATUS_CHUNKQ_LEVEL n, 0), (F.CORE_ACC_STATUS_SCALE_WAIT n, 0), (F.DECK_GEN_GEN n, 0), (F.DECK_HAND_STOLEN n, 0)]
    ++ (List.range 4).flatMap fun l => [(F.SEQ_EXT_TM n l, 0), (F.SEQ_EXT_TN n l, 0), (F.SEQ_EXT_TK n l, 0)])
  match r.l0Want with
  | some v => d.puts [(F.SEQ_MODE_L0_ONLY n, v), (F.SEQ_MODE_PENDING n, 0)]
  | none => d

/-- Free every core of a gang that works on a tile of the operation. -/
def Dev.freeGang (d : Dev) (fl o dr : Nat) : Dev :=
  (opCores o dr).foldl (fun d n => if (d.coreRun n).flight = some fl then d.freeCore n else d) d

/-- Forget the streaming loads of an operation in a core. -/
def Dev.dropLoads (d : Dev) (fl n : Nat) : Dev :=
  if (d.coreRun n).loadOf = some fl then
    let d := (List.range 8).foldl (fun d i => (d.modMacro n (56 + i) fun r => { r with order := r.order.filter fun x => match x with
      | .swap none _ _ => false
      | _ => true }).syncSwap n (56 + i)) d
    d.modCore n fun r => { r with loadActive := none, loadReady := none, loadWriting := none, loadSwap := none, loadLeft := [], loads := [],
                                  loadOf := none }
  else d

/-- Show what a lead's drawer holds in DECK_HAND and DECK_GEN. -/
def Dev.syncHand (d : Dev) (fl dr : Nat) : Dev :=
  match d.flight fl with
  | none => d
  | some f =>
    let n := opLead f.opRec dr
    let w := tget {} f.drawers dr
    d.puts [(F.DECK_HAND_FIRST n, (w.cur.map (·.first)).getD 0xFFFFFFFF), (F.DECK_HAND_COUNT n, (w.cur.map (·.count)).getD 0),
      (F.DECK_HAND_POS n, if w.cur.isSome then w.pos else 0), (F.DECK_HAND_LEAD n, 1), (F.DECK_HAND_EMPTY n, b01 w.empty),
      (F.DECK_HAND_STOLEN n, b01 ((w.tile.map fun t => t.2.2).getD false)), (F.DECK_GEN_GEN n, (w.tile.map fun t => t.2.1).getD 0)]

/-- Whether a MATRIX takes its tiles by dealing (R132, R182). -/
def Flight.deal (f : Flight) : Bool := fld f.desc 24 1 1 = 1

/-- Clear IN_USE in a deck header (R172). -/
def Dev.clearInUse (d : Dev) (o : Nat) : Dev :=
  let a := opDeck o + 23
  let b := d.peekNat a 1
  d.storeNat none a 1 (b / 2 * 2)

/-- The operation completes or ends with a status (R164, R172, R181): its cores and macros are let go of, its deck is no longer in use, and writes
of tiles not finished are never made. -/
def Dev.endOp (d : Dev) (fl st : Nat) : Dev :=
  match d.flight fl with
  | none => d
  | some f =>
    if f.ready then d else
    let o := f.opRec
    let d := d.setFlight fl (f.finish st)
    if !f.released then (if f.opSeq = 0 then d else d.clearInUse o) else
    let d := if f.deal then d else d.clearInUse o
    (List.range (opDrawers o)).foldl (fun d dr =>
      let n := opLead o dr
      let d := (d.freeGang fl o dr).leaveGang fl o dr
      let d := (opCores o dr).foldl (fun d n => d.dropLoads fl n) d
      d.puts [(F.DECK_HAND_FIRST n, 0xFFFFFFFF), (F.DECK_HAND_COUNT n, 0), (F.DECK_HAND_POS n, 0), (F.DECK_HAND_LEAD n, 0),
        (F.DECK_HAND_STOLEN n, 0), (F.DECK_HAND_EMPTY n, 0), (F.DECK_GEN_GEN n, 0)]) d

/-- An access of an operation was refused: it is counted, and the operation ends with its status (R164, R191). -/
def Dev.refuseOp (d : Dev) (fl a st : Nat) : Dev := (d.countRefusal a st).endOp fl st

/-- Whether an operation is still running. -/
def Dev.running (d : Dev) (fl : Nat) : Bool := match d.flight fl with
  | some f => f.released && !f.ready
  | none => false

def Dev.partOf (d : Dev) (fl : Nat) : Nat := ((d.flight fl).map (·.partition)).getD 0

/-! ### Staging (R136, R140, R145, R149) -/

/-- Codes of one width packed from bit 0 (R74). -/
def packCodes (w : Nat) : List Nat → Nat
  | [] => 0
  | c :: t => c % 2 ^ w + 2 ^ w * packCodes w t

/-- The bytes of exponent planes that staging rows `m0` to `m0 + 31` reads (R119, R120). -/
def expRanges (o m0 k0 k1 : Nat) : List (Nat × Nat) :=
  let r := opAScale o
  if opCompute o = 0 ∨ r.mode ≠ 4 then []
  else
    let g := match fmtBlock (opAFmt o) with
      | some (_, _, z) => z
      | none => 32
    let k1 := min k1 (opK o)
    if k1 ≤ k0 then [] else
      (((List.range 32).map (m0 + ·)).filter (rowValid o)).map fun mf => (r.addr + mf * r.stride + k0 / g, ceilDiv k1 g - k0 / g)

/-- Whether the elements of A that a core stages are counted: only for the N tiles of index 0 (R129). -/
def countsA (o dr n : Nat) (t0 : TilePos) : Bool := if opKind o = 0 then (opChainOf o dr n).1 = 0 else t0.n = 0

/-- Stage the 32 rows of A of the level-0 tile at a core's position into its staging ring (R138, R145), through the load path. -/
def Dev.stageLevel0 (z : Fixed) (d : Dev) (n : Nat) : Dev :=
  let r := d.coreRun n
  match d.coreOp n, (d.coreOp n).bind fun p => coreT0 p.2 n r with
  | some (fl, o), some t0 =>
    let part := d.partOf fl
    let len := opTK o 0
    let w := fmtWidth (opAFmt o)
    let halo := (d.drawer fl r.drawer).halo
    let ranges := aRanges o t0.m 32 t0.k (t0.k + len) ++ expRanges o t0.m t0.k (t0.k + len)
    let size := 32 * len * w / 8
    if 0x80000 < opStage1Off o + opStage1Slots o * size then d.endOp fl stAddressFault
    else match firstUnread z d (some part) ranges with
    | some (a, st) => d.refuseOp fl a st
    | none =>
      let d := ranges.foldl (fun d p => d.touch p.1 p.2) d
      let rows := (List.range 32).map fun i => d.loadRow o halo (t0.m + i) t0.k len
      let raw := (List.range 32).flatMap fun i =>
        (List.range len).map fun k => (d.aElement o halo (t0.m + i) (t0.k + k)).getD 0
      let nl0 := opTM o 1 / 32 * (opTN o 1 / opTN o 0) * (opTK o 1 / opTK o 0)
      let slot := (r.l1 * nl0 + r.l0) % opStage1Slots o
      let d := d.storeNat (some fl) (scratchAddr n (opStage1Off o + slot * size)) size (packCodes w raw)
      let d := if countsA o r.drawer n t0 then d.addCounts fl r.drawer (Counts.sum (rows.map fun p => p.2.2)) else d
      d.modCore n fun r => { r with staged := rows.map (fun p => p.1), aexp := rows.map (fun p => p.2.1), driven := [] }
  | _, _ => d

/-! ### Streaming loads (R58, R160) -/

/-- The macros of a load, those of its walked K tiles. -/
def loadMacros (o : Nat) (t0 : TilePos) : List (Nat × Nat × Nat) :=
  (walkedK o t0).flatMap fun ks => (List.range (opNS o)).map fun ns => (56 + ks * opNS o + ns, ks, ns)

/-- Bank order with an item put before its first operation, behind every swap that waits already. -/
def beforeOps (x : OrderItem) : List OrderItem → List OrderItem
  | [] => [x]
  | .op fl :: t => x :: .op fl :: t
  | i :: t => i :: beforeOps x t

/-- Where the load that the core's level-0 tile needs has been written ahead and is not active, the sequencer hands its own swaps to the macros:
they stand in bank order before the vectors that need them, behind the swaps handed earlier (R60, R160). -/
def Dev.wantLoad (d : Dev) (n : Nat) : Dev :=
  let r := d.coreRun n
  match d.coreOp n, (d.coreOp n).bind fun p => coreT0 p.2 n r with
  | some (_, o), some t0 =>
    if opKind o = 0 || r.loadSwap.isSome || r.loadActive = some (loadKey o t0) || r.loadReady ≠ some (loadKey o t0) then d
    else
      let ms := (loadMacros o t0).map fun p => p.1
      let banks := ((r.loads.find? fun i => i.key = loadKey o t0).map (·.banks)).getD []
      let d := d.modCore n fun r => { r with loadSwap := r.loadReady, loadReady := none, loadLeft := ms }
      ms.foldl (fun d m => (d.modMacro n m fun q =>
        { q with order := beforeOps (.swap none (((banks.find? fun b => b.1 = m).map (·.2)).getD (1 - d.activeBank n m)) 0) q.order }).syncSwap n m) d
  | _, _ => d

/-- The positions of the walk from where a core stands. -/
def walkAhead (o n : Nat) (r : CoreRun) : List TilePos :=
  match (coreLevel1 o n r).drop r.l1 with
  | [] => []
  | t :: rest => (level0 o t).drop r.l0 ++ rest.flatMap (level0 o)

/-- STREAMING_LOAD_WRITE: the sequencer starts to write the next load of the walk into the inactive bank of all its macros (R160). -/
def Dev.loadWrite (z : Fixed) (d : Dev) (n : Nat) : Dev :=
  let r := d.coreRun n
  match d.coreOp n with
  | none => d
  | some (fl, o) =>
    if opKind o = 0 || r.loadWriting.isSome || r.loadReady.isSome || r.loadSwap.isSome || !d.coreOn n || d.bit (F.CORE_STATE_HELD n) then d else
    match (walkAhead o n r).find? fun t => some (loadKey o t) ≠ r.loadActive with
    | none => d
    | some t =>
      let part := d.partOf fl
      let b := opBScale o
      let cols := ((List.range (opTN o 0)).map (t.n + ·)).filter (colValid o)
      let exps := if opCompute o = 2 ∨ opCompute o = 3 then
          cols.map fun nf => (b.addr + nf * b.stride + t.k / 32, ceilDiv (min (opK o) (t.k + opTK o 0) - t.k) 32) else []
      let ranges := bRanges o t ++ exps
      let ms := loadMacros o t
      if ms.any fun p => !(d.macroOn n p.1 && d.bankOn n p.1 (1 - d.activeBank n p.1)) then d.endOp fl stMacroOff
      else match firstUnread z d (some part) ranges with
      | some (a, st) => d.refuseOp fl a st
      | none =>
        let d := ranges.foldl (fun d p => d.touch p.1 p.2) d
        let load := d.loadB o t
        let keep := r.loads.filter fun i => some i.key = r.loadActive
        let info : LoadInfo := ⟨loadKey o t, load.map fun c => c.map fun g => g.exp, Counts.sum (load.map fun c => Counts.sum (c.map fun g => g.counts)),
          ms.map fun p => (p.1, 1 - d.activeBank n p.1)⟩
        let d := d.modCore n fun r => { r with loadWriting := some (loadKey o t), loadLeft := ms.map (fun p => p.1), loads := keep ++ [info] }
        ms.foldl (fun d p => d.queueWrite n p.1 { src := .load fl, bank := 1 - d.activeBank n p.1, slot := Nat.log2 (opW o), wsid := 0,
                                                  single := true, images := loadImages o load p.2.1 p.2.2 }) d

/-- STREAMING_LOAD_WRITE (R160). -/
def execStreamingLoadWrite (n : Fin 256) (s : State) : Host.Outcome State Fault Refusal := s.upd fun z d => d.loadWrite z n.val

/-- A write or swap has ended in a macro of a core: a load all of whose macros have ended is ready, or active; a fault ends the operation
(R58, R160, R164). -/
def Dev.loadSettled (d : Dev) (n : Nat) : Dev :=
  match d.coreOp n with
  | none => d
  | some (fl, _) =>
    let r := d.coreRun n
    let st := ((d.flight fl).map (·.status)).getD stOK
    if st ≠ stOK then d.endOp fl st
    else match r.loadWriting, r.loadSwap with
    | some k, _ =>
      if r.loadLeft = [] then
        ((d.modCore n fun r => { r with loadWriting := none, loadReady := some k }).bump (F.SEQ_CNT_LOADS n) 1).wantLoad n
      else d
    | none, some k =>
      if r.loadLeft = [] then d.modCore n fun r => { r with loadSwap := none, loadActive := some k }
      else if r.loadLeft.any fun m => !((d.macroRun n m).order.any fun i => match i with
          | .swap none _ _ => true
          | _ => false) then d.endOp fl stMacroOff
      else d
    | none, none => d

/-- PV_ROW_ATTEMPT_END (R54, R55, R56, R65). -/
def execPvRowAttemptEnd (n : Fin 256) (m : Fin 68) (pass : Bool) (s : State) : Host.Outcome State Fault Refusal :=
  s.upd fun _ d => (d.pvAttempt n.val m.val pass).loadSettled n.val

/-- SINGLE_PASS_WRITE_DONE (R58, R160). The lists name rows in increasing order. -/
def execSinglePassWriteDone (n : Fin 256) (m : Fin 68) (firstFails rewriteFails : List (Fin 512)) (s : State) :
    Host.Outcome State Fault Refusal :=
  s.upd fun _ d => (d.singlePassDone n.val m.val (firstFails.map (·.val)) (rewriteFails.map (·.val))).loadSettled n.val

/-- BANK_SWAP_APPLY (R60, R61, R71, R160). -/
def execBankSwapApply (n : Fin 256) (m : Fin 68) (s : State) : Host.Outcome State Fault Refusal :=
  s.upd fun _ d => (d.swapApply n.val m.val).loadSettled n.val

/-! ### The start of a walk -/

/-- A core opens a block: its store holds no row of it. In the head core a row takes its place with its first promotion, unless a spill record is to be resumed
(R114, R145, R158). -/
def CoreRun.openBlock (r : CoreRun) (o n : Nat) : CoreRun :=
  let first := match coreT1 o n r with
    | some t => opKind o = 0 || t.k = 0
    | none => true
  { r with totals := [], sat := false, forwarded := [], needResume := !first, present := [] }

/-- A core begins the walk of a tile: its registers show the operation, its stagger is set (R50, R145, R162, R383). -/
def Dev.beginCore (d : Dev) (fl o dr n t gen : Nat) : Dev :=
  let d := if (d.coreRun n).loadOf = some fl then d else d.modCore n fun r =>
    { r with loadActive := none, loadReady := none, loadWriting := none, loadSwap := none, loadLeft := [], loads := [], loadOf := some fl }
  let fresh := (d.coreRun n).loadActive = none && (d.coreRun n).loadReady = none && (d.coreRun n).loads = []
  let d := d.modCore n fun r => CoreRun.openBlock
    { flight := some fl, drawer := dr, tile := t, gen := gen, loadActive := r.loadActive, loadReady := r.loadReady, loadWriting := r.loadWriting,
      loadSwap := r.loadSwap, loadLeft := r.loadLeft, loads := r.loads, loadOf := r.loadOf, prevPlanes := r.prevPlanes, prevFull := r.prevFull,
      l0Want := r.l0Want } o n
  let r := d.coreRun n
  let mode := d.get (F.PWR_DIE_STAGGER_MODE (n / 64))
  let spread := mode = 1 || (mode = 2 && decide (d.get (F.PWR_DIE_STAGGER_THRESH (n / 64)) * r.prevPlanes < 16 * r.prevFull))
  let d := (List.range 64).foldl (fun d m => d.put (F.CIM_MODE_STAGGER n m) (if spread then m % 8 else 0)) d
  let d := (opMacros o dr n).foldl (fun d m => d.modMacro n m fun q => { q with tileOpen := false }) d
  let d := d.puts ([(F.SEQ_MODE_BUSY n, 1), (F.SEQ_OP_OPREC n, fld ((d.flight fl).map (·.desc)|>.getD 0) 16 0 64), (F.SEQ_TILE_TILE n, t),
    (F.SEQ_TILE_L1_INDEX n, 0), (F.SEQ_TILE_L0_INDEX n, 0), (F.SEQ_ORDER_ORDER0 n, opOrder o 0), (F.SEQ_ORDER_ORDER1 n, opOrder o 1),
    (F.SEQ_ORDER_ORDER2 n, opOrder o 2), (F.SEQ_ORDER_ORDER3 n, opOrder o 3), (F.CORE_ACC_STATUS_HALVED n, b01 (opThreshold o ≠ 0))]
    ++ (List.range 4).flatMap fun l => [(F.SEQ_EXT_TM n l, opTM o l / 32), (F.SEQ_EXT_TN n l, opTN o l / 8), (F.SEQ_EXT_TK n l, opTK o l / 512)])
  if opKind o = 1 ∧ opBSrc o = 1 ∧ fresh then
    match coreT0 o n (d.coreRun n) with
    | none => d
    | some t0 =>
      let b := opBScale o
      let exps := (List.range (opTN o 0)).map fun c => (List.range (opTK o 0 / 32)).map fun g =>
        (d.peek (b.addr + (t0.n + c) * b.stride + t0.k / 32 + g)).toNat
      d.modCore n fun r => { r with loadReady := some (loadKey o t0), loads := [⟨loadKey o t0, exps, {}, (loadMacros o t0).map fun p => (p.1, 1 - d.activeBank n p.1)⟩] }
  else d

/-! ### Vectors (R43 to R53, R62, R107 to R109, R147) -/

/-- Whether the first-vector check of R62 fails in a macro. -/
def Dev.weightMismatch (d : Dev) (o n m : Nat) : Bool :=
  let b := d.activeBank n m
  d.get (cimVALID n m b) = 0 || d.get (cimWSID n m b) ≠ opWsid o || d.get (cimSLOT n m b) ≠ opSlot o || (opBankSel o ≠ 0 && opBankSel o ≠ b + 1)

/-- The core passes on from a level-0 tile that all its macros have driven. -/
def Dev.nextLevel0 (z : Fixed) (d : Dev) (fl o n : Nat) (t0 : TilePos) : Dev :=
  let r := d.coreRun n
  let all := (walkedK o t0).all fun kt => (List.range (opNCols o)).all fun nb => r.driven.contains (opMacro o kt nb, 31)
  if !all then d else
  let d := if opKind o = 1 && countsB o t0 then
      match r.loads.find? fun i => i.key = loadKey o t0 with
      | some i => d.addCounts fl r.drawer i.counts
      | none => d
    else d
  let d := (d.modCore n fun r => { r with l0 := r.l0 + 1, driven := [], staged := [], aexp := [] }).syncSeq n
  (d.stageLevel0 z n).wantLoad n

/-- What a vector does with the subtotals of a macro: every slot and segment that lies inside the operation's N and K is added into its chunk. -/
def vectorChunks (o : Nat) (r : CoreRun) (t1 t0 : TilePos) (kt nb v : Nat) (rows : VecRows) : CoreRun × Nat :=
  let w := opW o
  let e := 128 / w
  let g := tapRows (opTap o)
  let row := t0.m - t1.m + v
  if !rowValid o (t0.m + v) then (r, 0) else
  (List.range e).foldl (fun p s =>
    let nf := t0.n + nb * e + s
    if !colValid o nf then p else
    (List.range (512 / g)).foldl (fun p q =>
      let k := t0.k + 512 * kt + q * g
      if opK o ≤ k then p else
      let aexp := if opCompute o = 0 then 0 else nth 0 (nth [] r.aexp v) ((k - t0.k) / 32)
      let bexp := if opCompute o = 1 ∧ opKind o = 1 then
          match r.loads.find? fun i => i.key = loadKey o t0 with
          | some i => nth 0 (nth [] i.exps (nb * e + s)) ((k - t0.k) / 32)
          | none => 0
        else 0
      let x := accAfter rows (q * g) g w s (opPlanes o) (opSigned o) (opPlanes o)
      let (r', k') := p.1.addSubtotal o row (nf - t1.n) k g (passEnd o t1) aexp bexp x
      (r', p.2 + k')) p) (r, 0)

/-- MACRO_VECTOR: a macro drives the planes of one vector (R43 to R52, R62, R65, R147). It is held while the chunk queue is full; a queue whose free entries do not
take the chunks that the vector closes counts as full (R115; log entry 255: DESIGN CHOICE). -/
def Dev.vector (z : Fixed) (d : Dev) (n m v : Nat) : Dev :=
  let r := d.coreRun n
  match d.coreOp n, (d.coreOp n).bind fun p => coreT1 p.2 n r, (d.coreOp n).bind fun p => coreT0 p.2 n r with
  | some (fl, o), some t1, some t0 =>
    let i := if opKind o = 0 then m else m - 56
    let kt := i / opNCols o
    let nb := i % opNCols o
    let mine := opMacro o kt nb = m && (walkedK o t0).contains kt && decide (v < 32) && !r.driven.contains (m, v)
    let before := (v = 0 || r.driven.contains (m, v - 1)) && (walkedK o t0).all fun k => decide (kt ≤ k) ||
      (List.range (opNCols o)).all fun b => r.driven.contains (opMacro o k b, 31)
    let turn := match (d.macroRun n m).order with
      | .op x :: _ => x = fl
      | _ => false
    let loaded := opKind o = 0 || r.loadActive = some (loadKey o t0)
    if !(mine && before && turn && loaded && d.coreOn n && !d.bit (F.CORE_STATE_HELD n) && !r.needResume && r.staged ≠ []) then d else
    let bank := d.activeBank n m
    let b := opPlanes o
    let codes := ((nth [] r.staged v).drop (512 * kt)).take 512
    let rows : VecRows := ((List.range 512).map fun k => d.row n m bank k % 2 ^ 256).zip (codes.map (ofSigned b))
    let (r', sats) := vectorChunks o r t1 t0 kt nb v rows
    if decide (16384 ≤ r.queue.length) || decide (16384 < r'.queue.length) then
      (d.put (F.CORE_ACC_STATUS_CHAIN_WAIT n) 1).bump (F.CORE_CNT_CHAIN_WAIT n) 1
    else
    let d := d.put (F.CORE_ACC_STATUS_CHAIN_WAIT n) 0
    if !(d.macroOn n m && d.bankOn n m bank) then d.endOp fl stMacroOff
    else if opKind o = 0 && (d.macroRun n m).checked ≠ some fl && d.weightMismatch o n m then d.endOp fl stWeightSetMismatch
    else
    let first := !(d.macroRun n m).tileOpen
    let wide := if first then d.bit (F.CIM_MODE_WIDE n m) && decide (1 ≤ opTap o) else d.bit (F.CIM_MODE_WIDE_EFFECTIVE n m)
    let d := if first then d.puts [(F.CIM_MODE_WIDE_EFFECTIVE n m, b01 wide), (F.CIM_MODE_TAP_LAST n m, opTap o)] else d
    let d := d.modMacro n m fun q => { q with tileOpen := true, checked := some fl }
    let k := vecCounts rows b wide
    let d := (((d.bump (F.CIM_CNT_PLANES n m) k.planes).bump (F.CIM_CNT_SKIPPED n m) k.skipped).bump (F.CIM_CNT_SPLITS n m) k.splits).bump
      (F.CIM_CNT_FULLSCALE n m) k.fullscale
    let d := if !rowValid o (t0.m + v) && nb = 0 then d.bump (F.SEQ_CNT_PAD_VECTORS n) 1 else d
    let d := d.modCore n fun _ => { r' with driven := (m, v) :: r'.driven, planes := r'.planes + k.planes, full := r'.full + k.fullscale }
    let d := (d.addCounts fl r.drawer { splits := k.splits, satChunks := sats }).bump (F.CORE_CNT_CHUNK_SAT n) sats
    ((d.syncAcc n).tryForward n (t0.m - t1.m + v)).nextLevel0 z fl o n t0
  | _, _, _ => d

/-- MACRO_VECTOR (R46). -/
def execMacroVector (n : Fin 256) (m : Fin 64) (v : Fin 32) (s : State) : Host.Outcome State Fault Refusal :=
  s.upd fun z d => d.vector z n.val m.val v.val

/-! ### The end of a pass (R114, R116, R145) -/

/-- BLOCK_PASS_END: a core that has driven a level-1 tile and promoted its chunks hands the block to the chain or the drain, keeps it, or spills it. -/
def Dev.passEnded (z : Fixed) (d : Dev) (n : Nat) : Dev :=
  let r := d.coreRun n
  match d.coreOp n, (d.coreOp n).bind fun p => coreT1 p.2 n r with
  | some (fl, o), some t1 =>
    let rows := if colValid o t1.n then (List.range (opTM o 1)).filter fun i => rowValid o (t1.m + i) else []
    let done := d.coreWorks n && decide ((level0 o t1).length ≤ r.l0) && r.queue = [] && r.openChunks = [] && rows.all r.present.contains &&
      (isTail o n r || rows.all r.forwarded.contains)
    if !done then d else
    let last : Bool := decide (opK o ≤ passEnd o t1)
    let next := (coreLevel1 o n r)[r.l1 + 1]?
    let stay : Bool := match next with
      | some t => sameBlock t t1
      | none => false
    let spills : Bool := opKind o = 1 && !last && !stay
    match if spills then rangeStatus z d (some (d.partOf fl))
        (spillAddr o n (tileOrigin o r.tile).1 (tileOrigin o r.tile).2 t1) (spillBytes o) else none with
    | some (a, st) => d.refuseOp fl a st
    | none =>
      let d := if spills then d.spill fl o n t1 else d
      let d := d.modCore n fun r =>
        let ds := if last && isTail o n r then r.drains ++ [⟨t1.m, t1.n, r.totals, r.sat, false⟩] else r.drains
        let r1 : CoreRun := { r with l1 := r.l1 + 1, l0 := 0, drains := ds }
        if stay then r1 else r1.openBlock o n
      let d := (d.bump (F.SEQ_CNT_BLOCKS n) 1).syncSeq n
      let d := match next with
        | none => (d.modCore n fun r => { r with walked := true }).bump (F.SEQ_CNT_TILES n) 1
        | some _ => (d.stageLevel0 z n).wantLoad n
      d.syncAcc n
  | _, _ => d

/-- BLOCK_PASS_END (R145). -/
def execBlockPassEnd (n : Fin 256) (s : State) : Host.Outcome State Fault Refusal := s.upd fun z d => d.passEnded z n.val

/-- SPILL_RESUME: the head core reads the record of its block and checks it (R116, R117), once its total store has room for the block (R113). -/
def Dev.resume (z : Fixed) (d : Dev) (n : Nat) : Dev :=
  let r := d.coreRun n
  match d.coreOp n, (d.coreOp n).bind fun p => coreT1 p.2 n r with
  | some (fl, o), some t1 =>
    if !r.needResume || !d.coreWorks n || decide (8192 < r.totalsUsed + opTM o 1 * opTN o 1) then d else
    let (m2, n2) := tileOrigin o r.tile
    let a := spillAddr o n m2 n2 t1
    match rangeStatus z d (some (d.partOf fl)) a (spillBytes o) with
    | some (x, st) => d.refuseOp fl x st
    | none =>
      let h := d.peekNat a 32
      let ok := fld h 0 0 32 = r.tile % 2 ^ 32 && fld h 16 0 32 = r.gen % 2 ^ 32 && fld h 4 0 32 = t1.k && fld h 8 0 16 = opTM o 1 &&
        fld h 10 0 16 = opTN o 1
      if !ok then d.endOp fl stSpillMismatch
      else
        let totals := (List.range (opTM o 1 * opTN o 1)).map fun i => (i, d.peekNat (a + 32 + 8 * i) 8)
        let d := d.modCore n fun r => { r with needResume := false, totals := totals, sat := fld h 12 0 1 = 1, present := List.range (opTM o 1) }
        (d.bump (F.CORE_CNT_RESUMES n) 1).syncAcc n
  | _, _ => d

/-- SPILL_RESUME (R117). -/
def execSpillResume (n : Fin 256) (s : State) : Host.Outcome State Fault Refusal := s.upd fun z d => d.resume z n.val

/-- SCALE_ARRIVE: a scale or exponent entry that the streamer reads arrives (R119, R120). -/
def Dev.scaleArrive (z : Fixed) (d : Dev) (n operand line group : Nat) : Dev :=
  match d.coreOp n with
  | none => d
  | some (fl, o) =>
    let r := if operand = 0 then opAScale o else opBScale o
    if r.mode = 0 ∨ (d.coreRun n).scaleOf operand (line, group) ≠ none then d else
    let (a, len) := scaleAddr r line group
    match readStatus z d (some (d.partOf fl)) a len with
    | some (x, st) => d.refuseOp fl x st
    | none => (d.touch a len).modCore n fun q => { q with scales := q.scales ++ [⟨operand, line, group, d.peekNat a len⟩] }

/-- SCALE_ARRIVE (R120): operand 0 is A and 1 is B. -/
def execScaleArrive (n : Fin 256) (operand : Fin 2) (line group : Nat) (s : State) : Host.Outcome State Fault Refusal :=
  s.upd fun z d => d.scaleArrive z n.val operand.val line group

/-! ### Drains (R125, R154 to R161) -/

/-- Slot width of the magnitudes that a bank destination writes (R161). -/
def bankWidth (c : Nat) : Nat := match fmtBlock c with
  | some (mb, _, _) => mb
  | none => if (fmtInt c).isSome then weightWidth 0 c else 16

/-- Write the row images of an OUTPUT with DEST = 1 into the inactive bank of the core's own streaming macros (R161). -/
def Dev.bankDrain (d : Dev) (fl n : Nat) (st : DrainStep) (images : List (Nat × List Nat)) : Dev :=
  let at_ := fun (i : Nat) => bitsAt st.arg32 0 6 + i
  if images.any fun p => !(d.macroOn n (at_ p.1) && d.bankOn n (at_ p.1) (1 - d.activeBank n (at_ p.1))) then d.endOp fl stMacroOff
  else images.foldl (fun d p =>
    let m := at_ p.1
    let d := d.modFlight fl fun f => { f with left := f.left ++ [n * 68 + m] }
    d.queueWrite n m { src := .drain fl, bank := 1 - d.activeBank n m, slot := Nat.log2 (bankWidth (convFmt st.arg16)), wsid := 0, single := true,
                       images := p.2 }) d

/-- The cores of the chain that a core stands in (R148). -/
def chainCores (o dr n : Nat) : List Nat :=
  if opKind o = 0 then (List.range (opKC o)).map fun i => opReplicaCore o dr + (opChainOf o dr n).1 * opKC o + i else [n]

/-- Take over what a final drain of a block gives its tile. -/
def Dev.drained (d : Dev) (fl n : Nat) (f : Flight) (b : DrainBlock) (out : DrainOut) (k : Counts) : Dev :=
  let r := d.coreRun n
  let d := d.modDrawer fl r.drawer fun w => { w with
    counts := (w.counts.add out.counts).add k, writes := w.writes ++ out.writes, zeros := w.zeros ++ out.zeros,
    stats := w.stats ++ out.stats.map (fun p => (n, p.1, p.2.1, p.2.2)), satTile := w.satTile || b.sat }
  let d := (d.modCore n fun r => { r with drains := r.drains.drop 1 }).syncAcc n
  match opOutput f.opRec with
  | some st => if st.dest then d.bankDrain fl n st out.images else d
  | none => d

/-- BLOCK_DRAIN: the oldest block of a tail core goes through the chain (R125, R154, R413). -/
def Dev.drainBlock (z : Fixed) (d : Dev) (n : Nat) : Dev :=
  let r := d.coreRun n
  match r.flight.bind d.flight, r.flight, r.drains with
  | some f, some fl, b :: _ =>
    let o := f.opRec
    if b.replayDue || !d.coreWorks n then d else
    let out := drainChain z d f b false
    if out.status ≠ stOK then
      match firstUnread z d (some f.partition) out.reads with
      | some (a, st) => d.refuseOp fl a st
      | none => d.endOp fl out.status
    else
      let d := out.reads.foldl (fun d p => d.touch p.1 p.2) d
      let d := if opKind o = 0 then d.monitor f.partition (opWsid o) (chainCores o r.drawer n) ((blockElems o b).map fun e => e.x) else d
      if opThreshold o ≠ 0 ∧ opThreshold o ≤ out.reqSat then
        let d := d.modDrawer fl r.drawer fun w => { w with writes := w.writes ++ out.writes }
        d.modCore n fun r => { r with drains := { b with replayDue := true } :: r.drains.drop 1 }
      else d.drained fl n f b out {}
  | _, _, _ => d

/-- BLOCK_DRAIN (R154). -/
def execBlockDrain (n : Fin 256) (s : State) : Host.Outcome State Fault Refusal := s.upd fun z d => d.drainBlock z n.val

/-- The bytes of a tile write (R74). -/
def TileWrite.bytes (t : TileWrite) : Nat := ceilDiv (t.bitOff + t.width * t.codes.length) 8

/-- Make a write of a drain: only the bits of its codes change. -/
def Dev.tileWrite (d : Dev) (fl : Nat) (t : TileWrite) : Dev :=
  let old := d.peekNat t.addr t.bytes
  let n := t.bitOff + t.width * t.codes.length
  d.storeNat (some fl) t.addr t.bytes (old % 2 ^ t.bitOff + packCodes t.width t.codes * 2 ^ t.bitOff + old / 2 ^ n * 2 ^ n)

/-- Memory as the drains of an unfinished tile have left it, their writes included: what a replay reads (R125). -/
def Dev.afterWrites (d : Dev) (fl : Nat) (ws : List TileWrite) : Dev := ws.foldl (fun d x => d.tileWrite fl x) d

/-- TILE_REPLAY: a block whose requantise step reached REPLAY_THRESHOLD is drained again with SOURCE 2 (R125). -/
def Dev.replayBlock (z : Fixed) (d : Dev) (n : Nat) : Dev :=
  let r := d.coreRun n
  match r.flight.bind d.flight, r.flight, r.drains with
  | some f, some fl, b :: _ =>
    if !b.replayDue || !d.coreWorks n then d else
    let out := drainChain z (d.afterWrites fl (d.drawer fl r.drawer).writes) f b true
    if out.status ≠ stOK then d.endOp fl out.status
    else (d.drained fl n f b out { replayed := 1 }).bump (F.CORE_CNT_REPLAYS n) 1
  | _, _, _ => d

/-- TILE_REPLAY (R125). -/
def execTileReplay (n : Fin 256) (s : State) : Host.Outcome State Fault Refusal := s.upd fun z d => d.replayBlock z n.val

end Sys2Proof.Machine
end

