-- ==== Sys2Proof/Machine/Deck.lean ====
section
/-! DEFINITION. Sys2Proof/Machine/Deck.lean: the dispatch of a MATRIX (R132, R133, R164), its deck (R166 to R184), halos (R153), level-0 commands
(R162, R163). -/
namespace Sys2Proof.Machine

open Sys2Proof

/-! ### The deck record (R168 to R172) -/

def handEntry (o dr : Nat) : Nat := opDeck o + 64 + 16 * dr
def claimAddr (o t : Nat) : Nat := opDeck o + 4160 + 8 * t

/-- STATE codes of a claim word (R171). -/
def claimStarted : Nat := 1
def claimDone : Nat := 2
def claimReturned : Nat := 3

def claimWord (st dr seq gen : Nat) : Nat := st % 4 + dr % 256 * 2 ^ 8 + seq % 65536 * 2 ^ 16 + gen % 2 ^ 32 * 2 ^ 32

/-- The state a claim word reads as: FREE where another operation wrote it (R171). -/
def claimState (seq w : Nat) : Nat := if bitsAt w 16 16 = seq then bitsAt w 0 2 else 0

/-- Whether a claim loses on a state: STARTED or DONE (R176). -/
def claimTaken (st : Nat) : Bool := st = claimStarted || st = claimDone

/-- Deck set-up at dispatch (R172): DECK_BUSY, or the header written and the OPSEQ advanced. -/
def Dev.deckSetup (d : Dev) (fl : Nat) (f : Flight) : Dev :=
  let o := f.opRec
  let a := opDeck o
  let h := d.peekNat a 64
  if fld h 23 0 1 = 1 then d.setFlight fl (f.finish stDeckBusy)
  else
    let old := fld h 20 0 16
    let wrap : Bool := old = 0 || old = 65535
    let seq := if wrap then 1 else old + 1
    let d := if wrap then d.storeNat (some fl) (a + 4160) (8 * opTiles o) 0 else d
    let hd := opTiles o % 2 ^ 32 * 2 ^ 128 + seq * 2 ^ 160 + opHand o * 2 ^ 176 + 2 ^ 184 + 2 ^ 192
    (d.storeNat (some fl) a 64 hd).setFlight fl { f with opSeq := seq }

/-- The lead writes its hand-table entry with one write (R170). -/
def Dev.writeHand (d : Dev) (fl dr : Nat) : Dev :=
  match d.flight fl with
  | none => d
  | some f =>
    let w := tget {} f.drawers dr
    let e := fun (h : Option Hand) => match h with
      | some x => x.first % 2 ^ 32 + x.count % 16 * 2 ^ 32
      | none => 0
    d.storeNat none (handEntry f.opRec dr) 16 (e w.cur + f.opSeq * 2 ^ 48 + e w.next * 2 ^ 64)

/-- The activation steps of a chain. -/
def actSteps (o : Nat) : List Nat := (List.range (opChain o).length).filter fun k => (opStep o k).type = 4

/-- The reserved bytes of every activation table of an operation are zero (R9, R156). -/
def Dev.tablesOk (d : Dev) (o : Nat) : Bool := (actSteps o).all fun k => d.peekNat ((opStep o k).arg64 + 252) 4 = 0

/-- Release an operation to its drawers (R133, R172, R174): its macros are entered in bank order and its activation tables are read (R156). -/
def Dev.releaseOp (z : Fixed) (d : Dev) (fl : Nat) : Dev :=
  match d.flight fl with
  | none => d
  | some f =>
    let o := f.opRec
    let acts := actSteps o
    let ranges := acts.map fun k => ((opStep o k).arg64, 768)
    let d := d.setFlight fl { f with released := true, armed := none, rerun := opTiles o + 1,
                                     tables := acts.map fun k => (k, d.peekNat (opStep o k).arg64 768) }
    match firstUnread z d (some f.partition) ranges with
    | some (a, st) => d.refuseOp fl a st
    | none =>
      let d := ranges.foldl (fun d p => d.touch p.1 p.2) d
      if !d.tablesOk o then d.endOp fl stInvalidField else
      (List.range (opDrawers o)).foldl (fun d dr => (d.enterGang fl o dr).syncHand fl dr) d

/-! ### Dispatch (R132, R133, R164) -/

/-- Reserved fields of a MATRIX body (R9, R132). -/
def matrixBodyOk (b : Nat) : Bool := fld b 16 0 64 % 64 = 0 && fld b 24 2 6 = 0 && fld b 25 0 56 = 0 && fld b 40 0 192 = 0

/-- Whether another running operation holds a core that a record names (R311): one of whose drawers may still take tiles there. -/
def Dev.coresBusy (d : Dev) (o : Nat) : Bool :=
  d.host.flights.any fun p => p.2.released && !p.2.ready &&
    (List.range (opDrawers p.2.opRec)).any fun dr =>
      !((tget {} p.2.drawers dr).stopped) && (opCores p.2.opRec dr).any fun n => (opAllCores o).contains n

/-- What a MATRIX does at dispatch: the checks of R164 in their order, then it is armed for its course or released. -/
def dispatchMatrix (z : Fixed) (d : Dev) (fl : Nat) (f : Flight) : Dev :=
  let b := f.desc
  let a := fld b 16 0 64
  if !matrixBodyOk b then d.setFlight fl (f.finish stInvalidField)
  else match readStatus z d (some f.partition) a 512 with
  | some (x, st) => (d.countRefusal x st).setFlight fl (f.finish st)
  | none =>
    let d := d.touch a 512
    let o := d.peekNat a 512
    let f := { f with opRec := o }
    let course := fld b 32 0 64
    if !opRecordOk z o f.partition f.deal || !((firstUnread z d (some f.partition) ((actSteps o).map fun k => ((opStep o k).arg64, 768))).isSome ||
        d.tablesOk o) then d.setFlight fl (f.finish stInvalidField)
    else if (opAllCores o).any fun n => z.partOfCore n ≠ f.partition then d.setFlight fl (f.finish stPartitionDenied)
    else if fld b 24 0 1 = 1 && decide (course ≤ d.course) then d.setFlight fl (f.finish stCoursePassed)
    else if !((List.range (opDrawers o)).any fun dr => d.gangWhole o dr) then d.setFlight fl (f.finish stCoreUnavailable)
    else
      let policy := d.get F.DECK_POLICY_STEAL_EN + 2 * d.get F.DECK_POLICY_DRAW_AHEAD + 256 * d.get F.DECK_POLICY_STALL_MS
      let f := { f with policy := policy }
      let d := if f.deal then d.setFlight fl f else d.deckSetup fl f
      if ((d.flight fl).map (·.ready)).getD true then d
      else if fld b 24 0 1 = 1 then d.modFlight fl fun f => { f with armed := some course }
      else d.releaseOp z fl

def Flight.stealEn (f : Flight) : Bool := bitsAt f.policy 0 1 = 1
def Flight.drawAhead (f : Flight) : Bool := bitsAt f.policy 1 1 = 1

/-- A MATRIX operation that runs, with the record it was dispatched with, if the number names one with such a drawer. -/
def Dev.opOf (d : Dev) (fl dr : Nat) : Option Flight :=
  match d.flight fl with
  | some f => if f.released && !f.ready && decide (dr < opDrawers f.opRec) then some f else none
  | none => none

/-! ### Drawing (R173 to R175) -/

/-- DECK_DRAW: the lead of a drawer draws a hand, when one of the conditions of R174 holds. -/
def Dev.draw (d : Dev) (fl dr : Nat) : Dev :=
  match d.opOf fl dr with
  | none => d
  | some f =>
    let o := f.opRec
    let w := tget {} f.drawers dr
    let lastStarted := match w.cur with
      | some h => w.started && decide (w.pos + 1 = h.count)
      | none => false
    let now := !f.deal && !w.empty && w.next.isNone && d.gangWhole o dr && !d.gangHeld o dr && (w.cur.isNone || (f.drawAhead && lastStarted))
    if !now then d else
    let n := opLead o dr
    let (v, d) := d.atomicAdd (opDeck o) 8 (opHand o)
    if opTiles o ≤ v then
      ((d.modDrawer fl dr fun w => { w with empty := true }).bump (F.DECK_CNT_EMPTY n) 1).syncHand fl dr
    else
      let h : Hand := ⟨v, min (v + opHand o) (opTiles o) - v⟩
      let d := d.modDrawer fl dr fun w => if w.cur.isNone then { w with cur := some h, pos := 0, last := none } else { w with next := some h }
      ((d.writeHand fl dr).bump (F.DECK_CNT_DRAWS n) 1).syncHand fl dr

/-- DECK_DRAW (R173). -/
def execDeckDraw (op dr : Nat) (s : State) : Host.Outcome State Fault Refusal := s.upd fun _ d => d.draw op dr

/-- The drawer moves on from a tile of its hand: to the next tile, or to a hand drawn ahead, whose entry it rewrites (R174). -/
def Dev.advance (d : Dev) (fl dr : Nat) : Dev :=
  let w := d.drawer fl dr
  match w.cur with
  | none => d
  | some h =>
    if w.pos + 1 < h.count then d.modDrawer fl dr fun w => { w with pos := w.pos + 1 }
    else match w.next with
      | some _ => (d.modDrawer fl dr fun w => { w with cur := w.next, next := none, pos := 0 }).writeHand fl dr
      | none => d.modDrawer fl dr fun w => { w with cur := none, pos := 0 }

/-! ### Claiming (R176) -/

/-- A claim lost: the tile is skipped and counted. -/
def Dev.loseClaim (d : Dev) (fl dr o : Nat) (stolen : Bool) : Dev :=
  let (_, d) := d.atomicAdd (opDeck o + 40) 8 1
  let d := d.bump (F.DECK_CNT_LOST (opLead o dr)) 1
  let d := if stolen then d.modDrawer fl dr fun w => { w with lostAt := w.target, target := none } else d.advance fl dr
  d.syncHand fl dr

/-- TILE_CLAIM: the lead claims its next tile, from its hand or the one that its search found (R176, R180). -/
def Dev.claim (d : Dev) (fl dr : Nat) : Dev :=
  match d.opOf fl dr with
  | none => d
  | some f =>
    let o := f.opRec
    let w := tget {} f.drawers dr
    let want : Option (Nat × Bool) := match w.cur, w.target with
      | some h, _ => some (h.first + w.pos, false)
      | none, some t => some (t.2.2, true)
      | none, none => none
    let free := (opCores o dr).all fun n => (d.coreRun n).flight.isNone
    if f.deal || w.tile.isSome || !d.gangWhole o dr || d.gangHeld o dr || !free || !d.gangFirst fl o dr then d else
    match want with
    | none => d
    | some (t, stolen) =>
      let a := claimAddr o t
      if claimTaken (claimState f.opSeq (d.peekNat a 8)) then d.loseClaim fl dr o stolen
      else
        let (g, d) := d.atomicAdd (opDeck o + 24) 8 1
        let (old, d) := d.atomicSwap a 8 (claimWord claimStarted dr f.opSeq g)
        if claimTaken (claimState f.opSeq old) then d.loseClaim fl dr o stolen
        else
          let n := opLead o dr
          let d := if stolen then (d.atomicAdd (opDeck o + 32) 8 1).2.bump (F.DECK_CNT_STEALS n) 1 else d
          let d := d.modDrawer fl dr fun w => { w with tile := some (t, g % 2 ^ 32, stolen), started := false, abandoned := false, target := none,
                                                       lostAt := none, stopped := false, haloDone := false, halo := none }
          (d.enterGang fl o dr).syncHand fl dr

/-- TILE_CLAIM (R176). -/
def execTileClaim (op dr : Nat) (s : State) : Host.Outcome State Fault Refusal := s.upd fun _ d => d.claim op dr

/-! ### Halos (R151 to R153) -/

/-- Whether the gang of a tile keeps the halo of the tile before it: it has just finished that tile of the same hand (R153). -/
def haloLocal (f : Flight) (w : Drawer) (t : Nat) (stolen : Bool) : Bool :=
  !f.deal && !stolen && decide (0 < w.pos) && decide (w.last = some (t - 1)) && decide (0 < t)

/-- The halo that a tile shares with the tile before it. -/
def haloBefore (o t : Nat) : Option (Nat × Nat × Nat) := if t = 0 then none else haloOf o (t - 1)

/-- HALO_FETCH: the gang reads the slot of the halo before its tile: a hit, or a miss (R153). The SEQ_CNT_HALO_ counters of the gang's lead core move (log entry 260:
DESIGN CHOICE). -/
def Dev.fetchHalo (z : Fixed) (d : Dev) (fl dr : Nat) : Dev :=
  match d.opOf fl dr with
  | none => d
  | some f =>
    let o := f.opRec
    let w := tget {} f.drawers dr
    let next := dr + w.pos * opDrawers o
    let tile : Option (Nat × Bool) := if f.deal then (if next < opTiles o then some (next, false) else none) else w.tile.map fun t => (t.1, t.2.2)
    match tile with
    | none => d
    | some (t, stolen) =>
      match haloBefore o t with
      | none => d
      | some (bb, _, _) =>
        if w.started || w.haloDone || haloLocal f w t stolen then d else
        let a := haloAddr o (t - 1)
        let h := d.peekNat a 64
        let rows := fld h 8 0 16
        let ok := (rangeStatus z d (some f.partition) a 64).isNone && fld h 0 0 32 = t - 1 &&
          (rangeStatus z d (some f.partition) a (64 + rows * haloRowBytes o)).isNone
        if ok then
          (d.modDrawer fl dr fun w => { w with haloDone := true,
                                               halo := some (bb, fld h 10 0 16, rows, d.peeks (a + 64) (rows * haloRowBytes o)) }).bump
            (F.SEQ_CNT_HALO_HIT (opLead o dr)) 1
        else (d.modDrawer fl dr fun w => { w with haloDone := true, halo := none }).bump (F.SEQ_CNT_HALO_MISS (opLead o dr)) 1

/-- HALO_FETCH (R153). -/
def execHaloFetch (op dr : Nat) (s : State) : Host.Outcome State Fault Refusal := s.upd fun z d => d.fetchHalo z op dr

/-! ### The start of a tile (R145) -/

/-- The bytes that STAGE2 stages for a tile: for each row of A, or each input row of its windows, its bytes rounded up to 32 (R134, R138). -/
def stage2Rows (o m2 : Nat) : List Nat :=
  if opWindow o then (aRanges o m2 (opTM o 2) 0 (opK o)).map fun p => p.1
  else (((List.range (opTM o 2)).map (m2 + ·)).filter (rowValid o)).map (rowAddr o)

/-- Stage the A rows of a tile into the pool of every die that holds a core of its gang. -/
def Dev.stage2 (z : Fixed) (d : Dev) (fl o dr m2 part : Nat) : Dev :=
  if !opStage2 o then d else
  let rows := stage2Rows o m2
  let L := rowBytes o
  let pad := roundUp L 32
  let dies := distinctKeys ((opCores o dr).map fun n => n / 64)
  match firstUnread z d (some part) (rows.map (fun a => (a, L)) ++ dies.map fun x => (poolAddr x (opStage2Off o), rows.length * pad)) with
  | some (a, st) => d.refuseOp fl a st
  | none =>
    let data := rows.flatMap fun a => d.peeks a L ++ List.replicate (pad - L) 0
    let d := rows.foldl (fun d a => d.touch a L) d
    dies.foldl (fun d x => d.store (some fl) (poolAddr x (opStage2Off o)) data) d

/-- TILE_START: the gang of a drawer starts its claimed, or dealt, tile (R145, R153, R182). -/
def Dev.tileStart (z : Fixed) (d : Dev) (fl dr : Nat) : Dev :=
  match d.opOf fl dr with
  | none => d
  | some f =>
    let o := f.opRec
    let w := tget {} f.drawers dr
    let next := dr + w.pos * opDrawers o
    let tile : Option (Nat × Nat × Bool) := if f.deal then
        (if next < opTiles o then some (next, if w.again then f.rerun else next + 1, false) else none) else w.tile
    match tile with
    | none => d
    | some (t, g, stolen) =>
      let cores := opCores o dr
      let free := cores.all fun n => (d.coreRun n).flight.isNone
      let shared := haloBefore o t
      let own := haloLocal f w t stolen
      if w.started || w.abandoned || !free || !d.gangWhole o dr || d.gangHeld o dr || !d.gangFirst fl o dr ||
          (shared.isSome && !own && !w.haloDone) then d
      else
        let (m2, _) := tileOrigin o t
        let d := if f.deal && w.again then d.modFlight fl fun f => { f with rerun := f.rerun + 1 } else d
        let d := d.modDrawer fl dr fun w => { w with
          tile := some (t, g, stolen), started := true, again := false, flushed := false, counts := {}, stats := [], writes := [], satTile := false, zeros := [] }
        let d := if shared.isSome && own then d.bump (F.SEQ_CNT_HALO_LOCAL (opLead o dr)) 1 else d
        let d := cores.foldl (fun d n => d.beginCore fl o dr n t g) (d.syncHand fl dr)
        let d := d.stage2 z fl o dr m2 f.partition
        if !d.running fl then d else
        let mine := match w.cur with
          | some h => !stolen && decide (t + 1 < h.first + h.count)
          | none => false
        let (d, st) := if mine then (d, stOK) else d.depositHalo z fl f.partition o t g (opLead o dr)
        if st ≠ stOK then d.endOp fl st
        else cores.foldl (fun d n => if d.running fl then (d.stageLevel0 z n).wantLoad n else d) d

/-- TILE_START (R145). -/
def execTileStart (op dr : Nat) (s : State) : Host.Outcome State Fault Refusal := s.upd fun z d => d.tileStart z op dr

/-! ### The end of a tile (R127, R177) -/

/-- A core's statistics store takes an entry of a tap and an index: the larger of it and the one there. The store has 8,192 entries; the value of one more is free,
for the spec states none (R127; log entry 256: DESIGN CHOICE). -/
def statsPut (free : Nat) (l : List ((Nat × Nat) × Nat)) (tap ix e : Nat) : List ((Nat × Nat) × Nat) :=
  if l.any fun p => p.1 = (tap, ix) then l.map fun p => if p.1 = (tap, ix) then (p.1, mergeEntry p.2 e) else p
  else l ++ [((tap, ix), if l.length < 8192 then e else (Config.freeWord free).toNat % 2 ^ 32)]

/-- The statistics stores of an operation take what a finished tile gathered: core, tap, index, entry (R127). -/
def statsGather (free : Nat) (t : Table (List ((Nat × Nat) × Nat))) (l : List (Nat × Nat × Nat × Nat)) : Table (List ((Nat × Nat) × Nat)) :=
  l.foldl (fun t e => tmod [] t e.1 fun s => statsPut free s e.2.1 e.2.2.1 e.2.2.2) t

/-- The larger of the entries that a set of cores holds for a tap and an index, 0 where none holds one (R127). -/
def gatheredEntry (stats : Table (List ((Nat × Nat) × Nat))) (cores : List Nat) (tap ix : Nat) : Nat :=
  cores.foldl (fun a n => (tget [] stats n).foldl (fun a p => if p.1 = (tap, ix) then mergeEntry a p.2 else a) a) 0

/-- The partial lines that a drawer's cores write for a tap: a number and the cores it gathers from. A replica has one, a streaming core one of its logical number;
with MODE 1 each core has an entry (R127). -/
def partialLines (o mode dr : Nat) : List (Nat × List Nat) :=
  if mode = 1 then (opCores o dr).map fun n => (n, [n]) else [(if opKind o = 0 then dr else opLead o dr, opCores o dr)]

/-- The taps of an operation that gather in partial lines, with their scale references. -/
def statsTaps (o : Nat) : List (Nat × ScaleRef) :=
  (List.range (opChain o).length).filterMap fun k =>
    let st := opStep o k
    let r := opSref o st.sref
    if st.type ≠ 7 ∨ r.mode = 3 then none else some (k, r)

/-- Entries of a line of a tap, and the address of partial line `p`. -/
def statsCount (o : Nat) (r : ScaleRef) : Nat := if r.mode = 2 then opNf o else 1
def partialAddr (r : ScaleRef) (p : Nat) : Nat := if r.mode = 2 then r.addr + (p + 1) * r.stride else r.addr + 4 * (p + 1)

/-- The cores of a drawer whose last tile has drained write their partial lines, zero in every entry that they never gathered (R127). -/
def Dev.statsFlush (z : Fixed) (d : Dev) (fl dr : Nat) : Dev :=
  match d.flight fl with
  | none => d
  | some f =>
    let o := f.opRec
    let lines := (statsTaps o).flatMap fun t => (partialLines o t.2.mode dr).map fun p => (t, p)
    if f.ready || (tget {} f.drawers dr).flushed then d else
    match firstRefused z d (some f.partition) (lines.map fun x => (partialAddr x.1.2 x.2.1, 4 * statsCount o x.1.2)) with
    | some (a, s) => d.refuseOp fl a s
    | none =>
      let d := d.modDrawer fl dr fun w => { w with flushed := true }
      lines.foldl (fun d x =>
        let cnt := statsCount o x.1.2
        d.storeNat (some fl) (partialAddr x.1.2 x.2.1) (4 * cnt)
          (packCodes 32 ((List.range cnt).map fun c => gatheredEntry f.stats x.2.2 x.1.1 c))) d

/-- STATS_MERGE: once every partial line has been written, the completing sequencer merges them in increasing order into the final entries (R127). -/
def Dev.statsMerge (z : Fixed) (d : Dev) (fl : Nat) (f : Flight) : Dev :=
  let o := f.opRec
  let d := (List.range (opDrawers o)).foldl (fun d dr => d.statsFlush z fl dr) d
  (statsTaps o).foldl (fun d t =>
    let r := t.2
    let cnt := statsCount o r
    let lines := (List.range (opDrawers o)).flatMap fun dr => (partialLines o r.mode dr).map fun p => partialAddr r p.1
    if !d.running fl then d else
    match firstUnread z d (some f.partition) (lines.map fun a => (a, 4 * cnt)), rangeStatus z d (some f.partition) r.addr (4 * cnt) with
    | some (a, s), _ => d.refuseOp fl a s
    | none, some (a, s) => d.refuseOp fl a s
    | none, none =>
      let d := lines.foldl (fun d a => d.touch a (4 * cnt)) d
      let final := (List.range cnt).map fun c => lines.foldl (fun v a => mergeEntry v (d.peekNat (a + 4 * c) 4)) 0
      d.storeNat (some fl) r.addr (4 * cnt) (packCodes 32 final)) d

/-- The counts of a finished tile, with its saturation summary and the zero entries it is the first to use (R109, R124, R128). -/
def tileCounts (f : Flight) (w : Drawer) (t : Nat) : Counts :=
  let fresh := (distinctKeys w.zeros).filter fun a => !f.zeroEntries.contains a
  w.counts.add { nulls := fresh.length, satTiles := b01 w.satTile, firstSat := if w.satTile then some t else none }

/-- TILE_FINISH: every write of the tile is made, the tile is DONE and its counts are the operation's; the last one completes the operation. -/
def Dev.tileFinish (z : Fixed) (d : Dev) (fl dr : Nat) : Dev :=
  match d.opOf fl dr with
  | none => d
  | some f =>
    let o := f.opRec
    let w := tget {} f.drawers dr
    match w.tile with
    | none => d
    | some (t, g, stolen) =>
      let cores := opCores o dr
      let done := w.started && !w.abandoned && cores.all fun n =>
        let r := d.coreRun n
        decide (r.flight = some fl) && r.walked && r.drains = [] && !(f.left.any fun k => k / 68 = n)
      if !done then d else
      match firstRefused z d (some f.partition) (w.writes.map fun x => (x.addr, x.bytes)) with
      | some (a, st) => d.refuseOp fl a st
      | none =>
        let d := d.afterWrites fl w.writes
        let d := { d with free := d.free + 1 }
        let d := d.modFlight fl fun f => { f with
          counts := f.counts.add (tileCounts f w t), stats := statsGather d.free f.stats w.stats, finished := f.finished + 1,
          zeroEntries := f.zeroEntries ++ (distinctKeys w.zeros).filter fun a => !f.zeroEntries.contains a }
        let d := d.freeGang fl o dr
        let d := d.modDrawer fl dr fun w => { w with
          tile := none, started := false, last := some t, haloDone := false, halo := none, counts := {}, stats := [], writes := [], zeros := [] }
        let (v, d) : Nat × Dev := if f.deal then (f.finished, d.modDrawer fl dr fun w => { w with pos := w.pos + 1 })
          else
            let d := d.storeNat none (claimAddr o t) 8 (claimWord claimDone dr f.opSeq g)
            let (v, d) := d.atomicAdd (opDeck o + 8) 8 1
            (v, if stolen then d else d.advance fl dr)
        let d := if f.deal && decide (opTiles o ≤ dr + (w.pos + 1) * opDrawers o) then
            ((d.modDrawer fl dr fun w => { w with stopped := true }).leaveGang fl o dr).statsFlush z fl dr else d
        let d := d.syncHand fl dr
        if v + 1 = opTiles o then
          match d.flight fl with
          | some f' => (d.statsMerge z fl f').endOp fl stOK
          | none => d
        else d

/-- TILE_FINISH (R177). -/
def execTileFinish (op dr : Nat) (s : State) : Host.Outcome State Fault Refusal := s.upd fun z d => d.tileFinish z op dr

/-! ### Stealing (R178) -/

/-- The tiles of a hand from the top down. -/
def handDown (first count : Nat) : List Nat := (List.range count).reverse.map (first + ·)

/-- The tiles that a search visits in order, with their places: entries beyond the own one, NEXT before CUR, from the top (R170, R178). -/
def Dev.searchList (d : Dev) (f : Flight) (dr : Nat) : List (Nat × Nat × Nat) :=
  let D := opDrawers f.opRec
  ((List.range D).drop 1).flatMap fun k =>
    let e := d.peekNat (handEntry f.opRec ((dr + k) % D)) 16
    if fld e 6 0 16 ≠ f.opSeq then []
    else (handDown (fld e 8 0 32) (fld e 12 0 4)).map (fun t => (k, 0, t)) ++ (handDown (fld e 0 0 32) (fld e 4 0 4)).map fun t => (k, 1, t)

/-- Whether a place comes after the one whose claim lost. -/
def searchAfter (lost : Option (Nat × Nat × Nat)) (p : Nat × Nat × Nat) : Bool :=
  match lost with
  | none => true
  | some (k, h, t) => decide (k < p.1) || (p.1 = k && (decide (h < p.2.1) || (p.2.1 = h && decide (p.2.2 < t))))

/-- STEAL_SEARCH: a lead whose draw was empty looks for a claimable tile, or stops (R178): its cores have then drained their last tile (R127). -/
def Dev.search (z : Fixed) (d : Dev) (fl dr : Nat) : Dev :=
  match d.opOf fl dr with
  | none => d
  | some f =>
    let o := f.opRec
    let w := tget {} f.drawers dr
    if f.deal || !w.empty || w.cur.isSome || w.next.isSome || w.tile.isSome || w.target.isSome || w.stopped || !d.gangWhole o dr || d.gangHeld o dr then d else
    let found := if f.stealEn then
        (d.searchList f dr).find? fun p => searchAfter w.lostAt p && decide (p.2.2 < opTiles o) &&
          !claimTaken (claimState f.opSeq (d.peekNat (claimAddr o p.2.2) 8)) else none
    match found with
    | some p => d.modDrawer fl dr fun w => { w with target := some p }
    | none => ((d.modDrawer fl dr fun w => { w with stopped := true, lostAt := none }).leaveGang fl o dr).statsFlush z fl dr

/-- STEAL_SEARCH (R178). -/
def execStealSearch (op dr : Nat) (s : State) : Host.Outcome State Fault Refusal := s.upd fun z d => d.search z op dr

/-! ### Abandoned tiles and stalls (R179 to R182) -/

/-- A core leaves ON: every gang that it belongs to abandons the tile it has claimed (R130, R179, R182). -/
def Dev.abandonTiles (d : Dev) (n : Nat) : Dev :=
  d.host.flights.foldl (fun d p =>
    let f := p.2
    let o := f.opRec
    if !f.released || f.ready then d else
    (List.range (opDrawers o)).foldl (fun d dr =>
      let w := tget {} f.drawers dr
      if !(opCores o dr).contains n || w.tile.isNone then d else
      let d := d.freeGang p.1 o dr
      let d := (opCores o dr).foldl (fun d n => d.dropLoads p.1 n) d
      d.modDrawer p.1 dr fun w => { w with
        counts := {}, stats := [], writes := [], zeros := [], satTile := false, haloDone := false, halo := none, started := false,
        abandoned := !f.deal, again := f.deal, tile := if f.deal then none else w.tile }) d) d

/-- TILE_RETURN: the claim word of an abandoned tile is swapped to RETURNED (R179); stopped leads search again, a search in progress goes on (R178). The lead or a
processor writes it; where neither is ON the model does not make the write wait (log entry 257: DESIGN CHOICE). -/
def Dev.tileReturn (d : Dev) (fl dr : Nat) : Dev :=
  match d.opOf fl dr with
  | none => d
  | some f =>
    let o := f.opRec
    let w := tget {} f.drawers dr
    match w.tile with
    | none => d
    | some (t, g, _) =>
      if !w.abandoned then d else
      let (old, d) := d.atomicSwap (claimAddr o t) 8 (claimWord claimReturned dr f.opSeq g)
      let mine : Bool := old = claimWord claimStarted dr f.opSeq g
      let d := if mine then d.bump (F.DECK_CNT_RETURNS (opLead o dr)) 1 else (d.atomicSwap (claimAddr o t) 8 old).2
      let d := d.modDrawer fl dr fun w => { w with tile := none, abandoned := false }
      let d := (List.range (opDrawers o)).foldl (fun d x =>
        if mine && d.gangWhole o x then d.modDrawer fl x fun w => if w.stopped then { w with stopped := false, lostAt := none } else w else d) d
      d.syncHand fl dr

/-- TILE_RETURN (R179). -/
def execTileReturn (op dr : Nat) (s : State) : Host.Outcome State Fault Refusal := s.upd fun _ d => d.tileReturn op dr

/-- Whether a drawer of an operation has work: for dealt tiles, tiles left to finish; else a tile that it has claimed, a hand, a draw to make, or a search (R174, R178,
R182). -/
def Flight.hasWork (f : Flight) (dr : Nat) : Bool :=
  let w := tget {} f.drawers dr
  if f.deal then decide (dr + w.pos * opDrawers f.opRec < opTiles f.opRec)
  else (w.tile.isSome && !w.abandoned) || w.cur.isSome || w.next.isSome || !w.empty || w.target.isSome || f.stealEn

/-- Whether the lead of a drawer is progressing (R181): its gang is whole, and it walks a tile, or is not held and has a tile to draw, claim or search for. -/
def Dev.progressing (d : Dev) (f : Flight) (dr : Nat) : Bool :=
  let w := tget {} f.drawers dr
  d.gangWhole f.opRec dr && !w.stopped && (w.started || (!d.gangHeld f.opRec dr && f.hasWork dr))

/-- STALL_TIMEOUT: for STALL_MS no lead of the operation has been progressing, or a gang with dealt tiles left has not been whole (R181, R182). -/
def Dev.stall (d : Dev) (fl : Nat) : Dev :=
  match d.opOf fl 0 with
  | none => d
  | some f =>
    let o := f.opRec
    let stalled := !((List.range (opDrawers o)).any fun dr => d.progressing f dr) ||
      (f.deal && (List.range (opDrawers o)).any fun dr => f.hasWork dr && !d.gangWhole o dr)
    if stalled then d.endOp fl stCoreUnavailable else d

/-- STALL_TIMEOUT (R181). -/
def execStallTimeout (op : Nat) (s : State) : Host.Outcome State Fault Refusal := s.upd fun _ d => d.stall op

/-! ### Level-0-only mode (R162, R163) -/

/-- Who may set L0_ONLY: Helam processors 0 and 5, and the test engine (R162). -/
def level0Source : Requester → Bool
  | .proc k => k.val = 0 || k.val = 5
  | .testEngine => true
  | _ => false

/-- L0_ONLY_CHANGE: the change takes effect at once, or when the core holds no deck tile (R162). -/
def Dev.l0Change (d : Dev) (n v : Nat) : Dev :=
  if (d.coreRun n).flight.isSome then (d.modCore n fun r => { r with l0Want := some v }).put (F.SEQ_MODE_PENDING n) 1
  else (d.modCore n fun r => { r with l0Want := none }).puts [(F.SEQ_MODE_L0_ONLY n, v), (F.SEQ_MODE_PENDING n, 0)]

/-- L0_ONLY_CHANGE (R162). -/
def execL0OnlyChange (q : Requester) (n : Fin 256) (v : Fin 2) (s : State) : Host.Outcome State Fault Refusal :=
  s.upd fun _ d => if level0Source q then d.l0Change n.val v.val else d

/-- Planes of an activation format in a level-0 command: a float goes through the F19 path (R91, R163; log entry 258: DESIGN CHOICE). -/
def level0Planes (fmt : Nat) : Nat := if isFloatOperand fmt then 12 else fmtPlanes fmt

/-- The 512 activations of a vector of a level-0 command from their stored codes: mantissas of a block format in two's complement, floats aligned in groups of 32
with truncation, for the command has no conversion control word and no exponents (R85, R90, R163; log entry 258: DESIGN CHOICE). -/
def level0Codes (fmt : Nat) (raw : List Nat) : List Int :=
  match fmtBlock fmt with
  | some (mb, _, _) => raw.map (mantVal mb)
  | none => if isFloatOperand fmt then (chunksOf 32 16 raw).flatMap fun g => (f19Align false (g.map (toF19 fmt false))).1.vals
    else raw.map (intVal fmt)

/-- Reserved fields and encodings of a level-0 command held as one number (R163): every activation format of R73 may stand in FMT. -/
def level0Ok (c : Nat) : Bool :=
  fld c 4 5 3 = 0 && decide (fld c 5 0 8 ≤ 31) && fld c 6 3 5 = 0 && decide (fld c 6 0 3 ≤ 4) && fld c 7 0 8 = 0 && fld c 20 0 96 = 0 &&
  decide (level0Planes (fld c 4 0 5) ≠ 0)

/-- A level-0 command at an offset of a core's scratchpad (R163): the raw subtotals of each vector, macro, slot and segment. The rule gives the causes no order: the
model tests the offset of the command, its reserved fields, the offsets in it, and the macros last; a misaligned command offset is CAUSE 0x03, and a command that
ends with a fault leaves DONE 0 (log entry 259: DESIGN CHOICE). -/
def Dev.level0 (d : Dev) (n off : Nat) : Dev :=
  let d := d.puts [(F.SEQ_L0_CMD_CMD_OFF n, off), (F.SEQ_L0_STATUS_DONE n, 0), (F.SEQ_L0_STATUS_FAULT n, 0), (F.SEQ_L0_STATUS_CAUSE n, 0)]
  let fault := fun (c : Nat) => d.puts [(F.SEQ_L0_STATUS_FAULT n, 1), (F.SEQ_L0_STATUS_CAUSE n, c)]
  if off % 32 ≠ 0 ∨ 0x80000 < off + 32 then fault 3 else
  let c := d.peekNat (scratchAddr n off) 32
  if !level0Ok c then fault 2 else
  let fmt := fld c 4 0 5
  let bits := fmtWidth fmt
  let b := level0Planes fmt
  let vs := fld c 5 0 6 + 1
  let tap := fld c 6 0 3
  let g := tapRows tap
  let ms := (List.range 64).filter fun m => bitsAt (fld c 8 0 64) m 1 = 1
  let w := fun (m : Nat) => slotWidth (d.get (cimSLOT n m (d.activeBank n m)))
  let S := 128 / (ms.foldl (fun a m => max a (w m)) 1)
  let Q := 512 / g
  let src := fld c 0 0 32
  let dst := fld c 16 0 32
  if 0x80000 < src + vs * 64 * bits ∨ dst % 8 ≠ 0 ∨ 0x80000 < dst + 8 * (vs * ms.length * S * Q) then fault 3
  else if ms.any fun m => !(d.macroOn n m && d.bankOn n m (d.activeBank n m)) then fault 1
  else
    let signed := match fmtInt fmt with
      | some (s, _) => s
      | none => true
    let codes := fun (v : Nat) => (level0Codes fmt ((List.range 512).map fun i => d.element bits (scratchAddr n (src + v * 64 * bits)) i)).map (ofSigned b)
    let cells := fun (m : Nat) => (List.range 512).map fun k => d.row n m (d.activeBank n m) k % 2 ^ 256
    let wide := fun (m : Nat) => d.bit (F.CIM_MODE_WIDE n m) && decide (1 ≤ tap)
    let out := (List.range vs).flatMap fun v => ms.flatMap fun m => (List.range S).flatMap fun s => (List.range Q).map fun q =>
      ofSigned 64 (if s < 128 / w m then accAfter ((cells m).zip (codes v)) (q * g) g (w m) s b signed b else 0)
    let d' := d.storeNat none (scratchAddr n dst) (8 * out.length) (packCodes 64 out)
    let d' := ms.foldl (fun d' m =>
      let d' := d'.puts [(F.CIM_MODE_WIDE_EFFECTIVE n m, b01 (wide m)), (F.CIM_MODE_TAP_LAST n m, tap)]
      (List.range vs).foldl (fun d' v =>
        let k := vecCounts ((cells m).zip (codes v)) b (wide m)
        (((d'.bump (F.CIM_CNT_PLANES n m) k.planes).bump (F.CIM_CNT_SKIPPED n m) k.skipped).bump (F.CIM_CNT_SPLITS n m) k.splits).bump
          (F.CIM_CNT_FULLSCALE n m) k.fullscale) d') d'
    (d'.put (F.SEQ_L0_STATUS_DONE n) 1).put (F.SEQ_L0_STATUS_COMMANDS n) (d.get (F.SEQ_L0_STATUS_COMMANDS n) + 1)

/-- A write of SEQ_L0_CMD (R163, SEQ_L0_CMD): by a Helam processor or the test engine; a host write is discarded, and so is a command to a
core that holds a deck tile, is held or is not ON. -/
def Dev.level0Write (d : Dev) (q : Requester) (n off : Nat) : Dev :=
  let taken : Bool := match q with
    | .fn _ => false
    | _ => true
  if taken && d.coreWorks n && (d.coreRun n).flight.isNone then d.level0 n off else d

/-- LEVEL0_COMMAND (R163). -/
def execLevel0Command (q : Requester) (n : Fin 256) (off : BitVec 32) (s : State) : Host.Outcome State Fault Refusal :=
  s.upd fun _ d => d.level0Write q n.val off.toNat

end Sys2Proof.Machine
end

