-- ==== Sys2Proof/Machine/Repair.lean ====
section
/-! DEFINITION. Sys2Proof/Machine/Repair.lean: holds (R34), fuse candidates, macro, core, column and bank repairs (R201 to R204, R406 to R409). -/
namespace Sys2Proof.Machine

open Sys2Proof

/-! ### Holds (R34, R36) -/

/-- HOLD_CAUSE bits. -/
def holdPower : Nat := 0
def holdHealth : Nat := 1
def holdThermal : Nat := 2

/-- Set or clear one cause of a hold in a state word; HELD reads 1 while any cause holds. -/
def Dev.setHold (d : Dev) (w cause : Nat) (on : Bool) : Dev :=
  let c := d.get (swCAUSE w)
  let c' := c - bitsAt c cause 1 * 2 ^ cause + b01 on * 2 ^ cause
  d.puts [(swCAUSE w, c'), (swHELD w, b01 (c' ≠ 0))]

def coreWord (n : Nat) : Nat := 0x2000008 + 0x1000 * n
def macroWord (n m : Nat) : Nat := 0x4000000 + 0x4000 * n + 0x80 * m

/-! ### Candidates (R409) -/

/-- A fuse candidate as one number, without VALID. -/
def candCode (type die unit elem col spare row : Nat) : Nat :=
  type + die * 2 ^ 4 + unit * 2 ^ 8 + elem * 2 ^ 16 + col * 2 ^ 24 + spare * 2 ^ 34 + row * 2 ^ 36

/-- A soft repair was made: it is counted, told to the host and entered as a candidate (R409). -/
def Dev.softRepair (d : Dev) (code : Nat) : Dev :=
  ((d.bump F.HLT_CNT_SOFT_REPAIRS 1).hltEvent F.HLT_EVENT_REPAIR).addCandidate code

/-! ### Cores (R18, R21, R407, R408) -/

/-- Physical cores of a die that serve no logical core, are not on their way to and have not failed. -/
def Dev.freeCores (d : Dev) (die : Nat) : List Nat :=
  (List.range 66).filter fun p => !((List.range 64).any fun i => d.get (F.CORE_ID_PHYSICAL (64 * die + i)) = p) &&
    !d.hlt.retiredCores.contains (die * 66 + p) && !(d.hlt.coreMoves.any fun x => x.1 / 64 = die && x.2 = p)

/-- Work out the neighbour links of a die from its repair table and its failed segments (R21, R22). -/
def Dev.relink (d : Dev) (die : Nat) : Dev :=
  let d := (List.range 63).foldl (fun d i =>
    let a := 64 * die + i
    let p := d.get (F.CORE_ID_PHYSICAL a)
    let q := d.get (F.CORE_ID_PHYSICAL (a + 1))
    let next := linkPath p q
    let prev := linkPath q p
    d.puts [(F.CORE_LINK_NEXT_STOPS a, next.1), (F.CORE_LINK_NEXT_DIR a, next.2), (F.CORE_LINK_PREV_STOPS (a + 1), prev.1),
      (F.CORE_LINK_PREV_DIR (a + 1), prev.2), (F.CORE_LINK_REROUTED a, 0), (F.CORE_LINK_REROUTED (a + 1), 0)]) d
  (d.hlt.linkFails.filter fun x => x.1 = die).foldl (fun d x => d.reroute die x.2) d

/-- The record of a core (R397). -/
def Dev.coreRecord (d : Dev) (n cls source action : Nat) : Dev :=
  d.failRec { unit := 8, cls := cls, source := source, action := action, die := n / 64, index := d.get (F.CORE_ID_PHYSICAL n), logical := n }

/-- A repair needs a spare core: the logical core is held until its move at the next boundary (R407), or is mapped out where no spare core
remains (R408). -/
def Dev.coreRepair (d : Dev) (n : Nat) : Dev :=
  if d.hlt.coreMoves.any fun x => x.1 = n then d else
  match d.freeCores (n / 64) with
  | p :: _ =>
    let d := (d.setHold (coreWord n) holdHealth true).abandonTiles n
    { d with hlt := { d.hlt with coreMoves := d.hlt.coreMoves ++ [(n, p)] } }
  | [] =>
    let d := d.puts [(F.CORE_STATE_EN n, 0), (F.CORE_STATE_STATE n, codeOFF), (F.CORE_STATE_ENABLE_PENDING n, 0), (F.CORE_STATE_START_FAULT n, 1),
      (F.HLT_CORE_SLICE_MAPPED_OUT n, 1)]
    let d := d.abandonTiles n
    ((d.coreRecord n clsLasting 8 8).hltEvent F.HLT_EVENT_MAPPED_OUT).hltEvent F.HLT_EVENT_SPARES_LOW

/-- Copy the rows of a bank of a physical macro to another, with the provenance record (R401, R407). -/
def Dev.copyBank (d : Dev) (src dst : Nat) : Dev :=
  let cells := (List.range 512).foldl (fun t r => setCells t (dst + r) (tget 0 d.cells (src + r))) d.cells
  let prov := match tfind d.hlt.provenance src with
    | some p => tset d.hlt.provenance dst p
    | none => terase d.hlt.provenance dst
  { d with cells := cells, hlt := { d.hlt with provenance := prov } }

/-- Step 3 of a boundary (R26, R407): a logical core moves to its new physical core, whose macros of the same logical numbers take its banks. -/
def Dev.moveCore (d : Dev) (n p : Nat) : Dev :=
  let die := n / 64
  let old := d.get (F.CORE_ID_PHYSICAL n)
  let d := (List.range 64).foldl (fun d m =>
    [0, 1].foldl (fun d b => d.copyBank (d.rowKeyOf n m b 0) (rowKey die p m b 0)) d) d
  let d := (List.range 68).foldl (fun d m => d.puts
    ([(F.CIM_MAP_PHYSICAL n m, m), (F.CIM_MAP_STREAM_CAP n m, b01 (56 ≤ m)), (F.CIM_MAP_ASSIGNED n m, b01 (m < 64)), (F.CIM_MAP_BORROWED n m, 0),
      (F.CIM_MAP_LOGICAL n m, if m < 64 then m else 0)])) d
  let d := (List.range 64).foldl (fun d m => d.setHold (macroWord n m) holdHealth false) d
  let d := { d with hlt := { d.hlt with
    duty := d.hlt.duty.filter fun x => x.1 / 68 ≠ n, slices := terase d.hlt.slices n,
    retiredCores := (die * 66 + old) :: d.hlt.retiredCores, coreMoves := d.hlt.coreMoves.filter fun x => x.1 ≠ n,
    retiredMacros := d.hlt.retiredMacros.filter fun x => x / 68 ≠ n } }
  let d := { d with pool := { d.pool with retired := d.pool.retired.filter (· ≠ n * 4) } }
  let d := d.puts [(F.CORE_ID_PHYSICAL n, p), (F.CORE_ID_SPARE n, b01 (64 ≤ p)), (F.HLT_CORE_SLICE_SPARES_FREE n, 4),
    (F.HLT_CORE_SLICE_PHASE n, 0), (F.HLT_CORE_SLICE_TARGETED n, 0)]
  let d := ((d.relink die).setHold (coreWord n) holdHealth false).softRepair (candCode 1 die (n % 64) 0 0 (p - 64) 0)
  let free : Nat := (d.freeCores die).length
  let d := (d.put (F.HLT_DIE_SPARE_CORES die) free).coreRecord n clsLasting 8 5
  if free = 0 then d.hltEvent F.HLT_EVENT_SPARES_LOW else d

/-! ### Macros (R19, R400, R406) -/

/-- Spare macros of a core that serve no logical macro and have not failed, a borrowed one among them (R19). -/
def Dev.unassigned (d : Dev) (n : Nat) : List Nat :=
  [64, 65, 66, 67].filter fun s => d.get (F.CIM_MAP_ASSIGNED n s) = 0 && !d.hlt.retiredMacros.contains (n * 68 + s)

/-- Those that no slice has borrowed. -/
def Dev.freeMacros (d : Dev) (n : Nat) : List Nat := (d.unassigned n).filter fun s => d.get (F.CIM_MAP_BORROWED n s) = 0

/-- A logical macro stays on the spare that serves it: the repair table changes, the failed macro is never used again (R20, R406). -/
def Dev.macroRepair (d : Dev) (n m spare : Nat) : Dev :=
  let old := d.get (F.CIM_MAP_PHYSICAL n m)
  let d := d.puts ((if 64 ≤ old then [(F.CIM_MAP_ASSIGNED n old, 0), (F.CIM_MAP_LOGICAL n old, 0)] else []) ++
    [(F.CIM_MAP_PHYSICAL n m, spare), (F.CIM_MAP_STREAM_CAP n m, 1), (F.CIM_MAP_ASSIGNED n spare, 1), (F.CIM_MAP_LOGICAL n spare, m),
     (F.CIM_MAP_BORROWED n spare, 0)])
  let d := { d with hlt := { d.hlt with duty := terase d.hlt.duty (n * 68 + m), retiredMacros := (n * 68 + old) :: d.hlt.retiredMacros } }
  let d := d.put (F.HLT_CORE_SLICE_SPARES_FREE n) (d.unassigned n).length
  d.softRepair (candCode 2 (n / 64) (n % 64) old 0 (spare - 64) 0)

/-! ### Banks and their columns (R201 to R204) -/

/-- An array by number: 0 to 255 the scratchpads, 256 to 259 the die pools, 260 the deck home. -/
def arrOf : BankArray → Nat
  | .scratch n => n.val
  | .pool d => 256 + d.val
  | .deckHome => 260

/-- The fields of column entry `e` of a bank (R201). -/
def colWord (arr bank : Nat) : Nat := if arr < 256 then 0x5000040 + 0x400 * arr + 4 * bank else 0x5080800 + 0x4000 * (arr - 256) + 8 * bank
def colCOL (arr bank e : Nat) : Fld := ⟨colWord arr bank, 16 * e, if arr < 256 then 9 else 10, 0⟩
def colVALID (arr bank e : Nat) : Fld := ⟨colWord arr bank, 16 * e + if arr < 256 then 9 else 10, 1, 0⟩

/-- The first unused column entry of a bank. -/
def Dev.freeColumn (d : Dev) (arr bank : Nat) : Option Nat :=
  (List.range (if arr < 256 then 2 else 4)).find? fun e => d.get (colVALID arr bank e) = 0

/-- Write a soft column entry (R201, R202). -/
def Dev.columnEntry (d : Dev) (arr bank e col : Nat) : Dev :=
  (d.puts [(colCOL arr bank e, col), (colVALID arr bank e, 1)]).softRepair
    (if arr < 256 then candCode 3 (arr / 64) (arr % 64) bank col e 0 else candCode 4 (arr - 256) bank 0 col e 0)

/-- Spare banks of an array that serve no bank: assigned to none, borrowed by none. -/
def Dev.freeBanks (d : Dev) (arr : Nat) : List Nat :=
  if arr < 256 then (if (tfind d.pool.borrows (arr * 4)).isSome || d.pool.retired.contains (arr * 4) then [] else [0])
  else if arr < 260 then (List.range 4).filter fun s =>
    d.get (F.POOL_DP_SPARE_ASSIGNED (arr - 256) s) = 0 && (tfind d.pool.borrows (arr * 4 + s)).isNone && !d.pool.retired.contains (arr * 4 + s)
  else []

/-- Unassigned spare banks of a die pool. -/
def Dev.unassignedBanks (d : Dev) (die : Nat) : Nat :=
  ((List.range 4).filter fun s => d.get (F.POOL_DP_SPARE_ASSIGNED die s) = 0 && !d.pool.retired.contains ((256 + die) * 4 + s)).length

/-- Unassigned spare banks that no replacement under way will take: one of them is kept for slice tests (R202). -/
def Dev.sparesLeft (d : Dev) (die : Nat) : Nat :=
  d.unassignedBanks die - (d.pool.borrows.filter fun p => p.1 / 4 = 256 + die && p.2.why = 2).length

def setBitAt (w i : Nat) (on : Bool) : Nat := w - bitsAt w i 1 * 2 ^ i + b01 on * 2 ^ i

/-- Show the phase of a borrow in the status of its array (R204). -/
def Dev.showBorrow (d : Dev) (arr spare bank : Nat) (mirror redirect : Bool) : Dev :=
  if arr < 256 then
    d.puts [(F.POOL_SP_STATUS_MIRROR arr, b01 mirror), (F.POOL_SP_STATUS_REDIRECT arr, b01 redirect), (F.POOL_SP_STATUS_BANK_SERVED arr, bank)]
  else
    let p := arr - 256
    d.puts [(F.POOL_DP_STATUS_MIRROR p, setBitAt (d.get (F.POOL_DP_STATUS_MIRROR p)) spare mirror),
      (F.POOL_DP_STATUS_REDIRECT p, setBitAt (d.get (F.POOL_DP_STATUS_REDIRECT p)) spare redirect),
      (F.POOL_DP_SPARE_BANK_SERVED p spare, bank), (F.POOL_DP_SPARE_BORROWED p spare, b01 (mirror || redirect))]

/-- Show the phase of a bank slice in the HLT_ block: 0 none, 1 copy, 2 test, 3 copy back (R405). -/
def Dev.showBankSlice (d : Dev) (arr bank phase : Nat) : Dev :=
  if arr < 256 then d.puts [(F.HLT_CORE_SLICE_SP_BANK arr, bank), (F.HLT_CORE_SLICE_SP_PHASE arr, phase)]
  else d.puts [(F.HLT_DIE_DP_BANK (arr - 256), bank), (F.HLT_DIE_DP_PHASE (arr - 256), phase)]

def Dev.setBorrow (d : Dev) (arr spare : Nat) (b : Borrow) : Dev :=
  { d with pool := { d.pool with borrows := tset d.pool.borrows (arr * 4 + spare) b } }
def Dev.dropBorrow (d : Dev) (arr spare : Nat) : Dev :=
  { d with pool := { d.pool with borrows := terase d.pool.borrows (arr * 4 + spare) } }

/-- Whether a bank is being served by a borrow. -/
def Dev.bankBorrowed (d : Dev) (arr bank : Nat) : Bool := d.pool.borrows.any fun p => p.1 / 4 = arr && p.2.bank = bank

/-- The health processor borrows a spare bank: the copy begins and writes are mirrored (R204). -/
def Dev.startBorrow (d : Dev) (arr spare bank why column : Nat) : Dev :=
  let d := (d.setBorrow arr spare ⟨spare, bank, 0, false, why, column, 0, 0⟩).showBorrow arr spare bank true false
  if why = 0 then d.showBankSlice arr bank 1 else d

/-- The physical bank that serves a bank outside borrows: an assigned spare in its place (R203). -/
def Dev.homeBank (d : Dev) (arr bank : Nat) : Nat :=
  if arr < 256 ∨ 260 ≤ arr then bank
  else match (List.range 4).find? fun s => d.get (F.POOL_DP_SPARE_ASSIGNED (arr - 256) s) = 1 ∧
      d.get (F.POOL_DP_SPARE_BANK_SERVED (arr - 256) s) = bank with
    | some s => 192 + s
    | none => bank

/-- The physical bank that reads of a bank come from: the spare of a borrow while the bank is redirected (R204), else the bank itself. -/
def Dev.physicalBank (d : Dev) (arr bank : Nat) : Nat :=
  match d.pool.borrows.find? fun p => p.1 / 4 = arr && p.2.bank = bank && decide (1 ≤ p.2.phase) with
  | some p => arrBanks arr + p.2.spare
  | none => d.homeBank arr bank

/-- A fault waits until a spare bank is free (R202). -/
def Dev.keepFault (d : Dev) (arr bank col : Nat) : Dev :=
  if d.pool.faults.contains (arr, bank, col) then d else { d with pool := { d.pool with faults := d.pool.faults ++ [(arr, bank, col)] } }

/-- A lasting column fault of a bank (R198, R202): a column entry through a borrow; a bank whose columns are used is replaced, in a scratchpad with
its core (R407). A fault met while its bank is borrowed, or that finds no spare bank free, waits (log entry 261: DESIGN CHOICE); one of the borrowed
spare itself has no column entry to go to. -/
def Dev.repairColumn (d : Dev) (arr bank col : Nat) : Dev :=
  if 260 ≤ arr || d.physicalBank arr bank ≠ d.homeBank arr bank then d
  else if d.bankBorrowed arr bank then d.keepFault arr bank col
  else match d.freeColumn arr bank with
  | some _ =>
    match d.freeBanks arr with
    | s :: _ => d.startBorrow arr s bank 1 col
    | [] => d.keepFault arr bank col
  | none =>
    if arr < 256 then d.coreRepair arr
    else match d.freeBanks arr with
      | s :: _ => if 2 ≤ d.sparesLeft (arr - 256) then d.startBorrow arr s bank 2 col else d
      | [] => if 2 ≤ d.sparesLeft (arr - 256) then d.keepFault arr bank col else d

/-- Whether a column of a bank has an entry already. -/
def Dev.hasColumn (d : Dev) (arr bank col : Nat) : Bool :=
  (List.range (if arr < 256 then 2 else 4)).any fun e => d.get (colVALID arr bank e) = 1 && d.get (colCOL arr bank e) = col

/-- The faults that wait for a spare bank are taken up again, unless their columns have been repaired meanwhile; those that still find none wait on. -/
def Dev.retryFaults (d : Dev) : Dev :=
  d.pool.faults.foldl (fun d x => if d.hasColumn x.1 x.2.1 x.2.2 then d else d.repairColumn x.1 x.2.1 x.2.2) { d with pool := { d.pool with faults := [] } }

/-- A spare bank takes the place of a bank for good (R202, R203); a spare that had its place before, and has failed in it, is used no more. -/
def Dev.assignBank (d : Dev) (arr spare bank : Nat) : Dev :=
  let p := arr - 256
  let d := if d.homeBank arr bank = bank then d else
    let old := d.homeBank arr bank - 192
    ({ d with pool := { d.pool with retired := (arr * 4 + old) :: d.pool.retired } }).put (F.POOL_DP_SPARE_ASSIGNED p old) 0
  let d := ((d.dropBorrow arr spare).showBorrow arr spare bank false false).put (F.POOL_DP_SPARE_ASSIGNED p spare) 1
  let d := (d.put (F.HLT_DIE_SPARE_BANKS p) (d.unassignedBanks p)).softRepair (candCode 5 p bank 0 0 spare 0)
  if d.unassignedBanks p = 0 then d.hltEvent F.HLT_EVENT_SPARES_LOW else d

/-- What a boundary does with a borrow whose copy or copy back has ended (R26, R202, R204). A column repair writes its entry, and begins the copy back, at
the boundary after the one that redirects its bank (log entry 262: DESIGN CHOICE). -/
def Dev.switchBorrow (d : Dev) (arr : Nat) (b : Borrow) : Dev :=
  if b.why = 1 ∧ b.phase = 1 then
    let d := match d.freeColumn arr b.bank with
      | some e => d.columnEntry arr b.bank e b.column
      | none => d
    (d.setBorrow arr b.spare { b with phase := 2, due := false }).showBorrow arr b.spare b.bank true true
  else if !b.due then d
  else if b.phase = 2 then
    let d := (d.dropBorrow arr b.spare).showBorrow arr b.spare b.bank false false
    if b.why = 0 then (d.showBankSlice arr b.bank 0).bump F.HLT_CNT_SLICES 1 else d
  else if b.why = 2 then d.assignBank arr b.spare b.bank
  else
    let d := (d.setBorrow arr b.spare { b with phase := 1, due := false }).showBorrow arr b.spare b.bank false true
    if b.why = 0 then d.showBankSlice arr b.bank 2 else d

/-- BANK_REDIRECT_SWITCH at a boundary, for every borrow (R204). -/
def Dev.switchBorrows (d : Dev) : Dev := (d.pool.borrows.foldl (fun d p => d.switchBorrow (p.1 / 4) p.2) d).retryFaults

/-- The repair-table changes of cores that are due at a boundary (R407). -/
def Dev.moveCores (d : Dev) : Dev := d.hlt.coreMoves.foldl (fun d x => d.moveCore x.1 x.2) d

end Sys2Proof.Machine
end

