-- ==== Sys2Proof/Machine/Pool.lean ====
section
/-! DEFINITION. Sys2Proof/Machine/Pool.lean: bank access, arbitration, errors, atomics, patrol, borrows and vault wipes of the banked arrays (R187 to
R212). -/
namespace Sys2Proof.Machine

open Sys2Proof

def Dev.vaultWiping (d : Dev) (die : Nat) : Bool := bitsAt (d.get F.POOL_VAULT_STATUS_WIPING) die 1 = 1

/-! ### Errors (R197 to R199) -/

/-- Record an error in the ERR register of an array and count it: class 1 corrected, 2 transient, 3 lasting. -/
def Dev.arrayError (d : Dev) (arr off cls col master : Nat) : Dev :=
  if arr < 256 then
    let d := d.puts [(F.POOL_SP_ERR_OFFSET arr, off), (F.POOL_SP_ERR_CLASS arr, cls), (F.POOL_SP_ERR_COLUMN arr, if cls = 1 then col else 0),
      (F.POOL_SP_ERR_MASTER arr, master), (F.POOL_SP_ERR_VALID arr, 1)]
    d.bump (if cls = 1 then F.POOL_SP_CNT_CORRECTED arr else if cls = 2 then F.POOL_SP_CNT_TRANSIENT arr else F.POOL_SP_CNT_LASTING arr) 1
  else if arr < 260 then
    let p := arr - 256
    let d := d.puts [(F.POOL_DP_ERR_OFFSET p, off), (F.POOL_DP_ERR_CLASS p, cls), (F.POOL_DP_ERR_COLUMN p, if cls = 1 then col else 0),
      (F.POOL_DP_ERR_MASTER p, master), (F.POOL_DP_ERR_VALID p, 1)]
    d.bump (if cls = 1 then F.POOL_DP_CNT_CORRECTED p else if cls = 2 then F.POOL_DP_CNT_TRANSIENT p else F.POOL_DP_CNT_LASTING p) 1
  else d

/-- The failure record of a word of a physical bank of an array (R397); the deck home has no unit type. -/
def Dev.arrayRecord (d : Dev) (arr phys row cls source action col : Nat) : Dev :=
  if arr < 256 then
    d.failRec { unit := 3, cls := cls, source := source, action := action, die := arr / 64, index := d.get (F.CORE_ID_PHYSICAL arr), sub := phys,
                addr := row, bitNo := col, logical := arr }
  else if arr < 260 then
    d.failRec { unit := 4, cls := cls, source := source, action := action, die := arr - 256, index := phys, addr := row, bitNo := col }
  else d

/-- What the check bits of a read of a word lead to (R198, R199): the state after it, and whether the read failed. ERR names the granule that the bad
column lies in, or that has several bad bits. Each read of a word forgets the correction before it, unless it is the next. -/
def Dev.readCheck (d : Dev) (arr bank row master source : Nat) (ecc : WordEcc) : Dev × Bool :=
  let key := wordKey arr bank row
  let off := (row * arrBanks arr + bank) * arrWord arr
  let last := tfind d.pool.lastCorr key
  let d := { d with pool := { d.pool with lastCorr := terase d.pool.lastCorr key } }
  let phys := d.physicalBank arr bank
  match ecc with
  | .clean => (d, false)
  | .corrected col =>
    let data := 8 * arrWord arr
    let gran := if col < data then col / 64 else (col - data) / 8
    let d := d.arrayError arr (off + 8 * gran) 1 col master
    let wb := (bankKey arr bank, row, gran)
    let d := { d with pool := { d.pool with writeBack := (d.pool.writeBack.filter (· ≠ wb)) ++ [wb] } }
    if last = some col then
      let d := (d.tell 5 7 (wordAddr arr bank row)).arrayRecord arr phys row clsLasting source 2 col
      (d.repairColumn arr bank col, false)
    else
      let d := { d with pool := { d.pool with lastCorr := tset d.pool.lastCorr key col } }
      (d.arrayRecord arr phys row clsTransient source 1 col, false)
  | .transient g => ((d.arrayError arr (off + 8 * g.val) 2 0 master).arrayRecord arr phys row clsTransient source 1 0xFFFF, false)
  | .lasting g =>
    let d := (d.arrayError arr (off + 8 * g.val) 3 0 master).tell 5 6 (wordAddr arr bank row)
    (d.arrayRecord arr phys row clsLasting source 0 0xFFFF, true)

/-- End an in-flight descriptor with a status: a running MATRIX gives back what it holds. -/
def Dev.failFlight (d : Dev) (fl : Option Nat) (st : Nat) : Dev :=
  match fl with
  | some i => d.endOp i st
  | none => d

/-! ### Access (R188 to R196) -/

/-- The status of an access at a bank port (R190, R191, R205, R212): Helam processor 0 alone reaches the vault; a scratchpad whose core is not ON, and a
pool that is being cleared, refuse everyone; masters 67 and 68 alone reach the assembly area (R223). -/
def portStatus (z : Fixed) (d : Dev) (a master : Nat) (part : Option Nat) (proc0 : Bool) : Nat :=
  let st := accessStatus z d (if proc0 then none else part) a
  match d.region a with
  | .pool _ off =>
    if st = stOK ∧ vaultOff ≤ off ∧ ¬ proc0 then stVaultDenied
    else if st = stAddressFault ∧ d.inAssembly a ∧ (master = 67 ∨ master = 68) then stOK
    else st
  | _ => st

/-- Whether an address lies in a vault that is being wiped (R208). -/
def Dev.inWipe (d : Dev) (a : Nat) : Bool :=
  match d.region a with
  | .pool die off => decide (vaultOff ≤ off) && d.vaultWiping die
  | _ => false

/-- Bytes of an atomic operand. -/
def atomBytes : AtomicWidth → Nat
  | .w4 => 4
  | .w8 => 8
  | .other n => n

/-- The bank is in the second cycle of an access of a master, or is not. -/
def Dev.setBusy (d : Dev) (key : Nat) (on : Option Nat) : Dev :=
  { d with pool := { d.pool with busy := match on with
    | some m => tset d.pool.busy key m
    | none => terase d.pool.busy key } }

/-- The bank is in the second cycle of an access, in which no claim is granted (R195). -/
def Dev.bankBusy (d : Dev) (key : Nat) : Bool := (tfind d.pool.busy key).isSome

/-- An atomic at a bank, by a master of its array (R192, R194 to R196, R205, R208): its status and returned value. -/
def Dev.bankAtomic (z : Fixed) (d : Dev) (add : Bool) (master : Nat) (part : Option Nat) (proc0 : Bool) (fl : Option Nat) (a width v : Nat) (ecc : WordEcc) :
    (Nat × Nat) × Dev :=
  let st := atomicStatus z d (if proc0 then none else part) a width
  let inVault : Bool := match d.region a with
    | .pool _ off => decide (vaultOff ≤ off)
    | _ => false
  let st := if st = stOK ∧ inVault ∧ ¬ proc0 then stVaultDenied else st
  if st ≠ stOK then ((st, 0), (d.denied a st).failFlight fl st)
  else if d.inWipe a then ((stOK, 0), d)
  else match d.wordPlace a with
    | none => ((stAddressFault, 0), d)
    | some (arr, bank, row) =>
      let (d, bad) := d.readCheck arr bank row master 4 ecc
      if bad then ((stSramUncorrectable, 0), d.failFlight fl stSramUncorrectable)
      else
        let (old, d) := if add then d.atomicAdd a width (v % 2 ^ (8 * width)) else d.atomicSwap a width (v % 2 ^ (8 * width))
        ((stOK, old), d.setBusy (bankKey arr bank) (some master))

/-- Whether a write covers only part of some granule (R188). -/
def partGranule (bytes : List (Nat × Byte)) : Bool :=
  (List.range 8).any fun g =>
    let n := ((List.range 8).filter fun i => bytes.any fun p => p.1 = 8 * g + i).length
    decide (0 < n) && decide (n < 8)

/-- A granted claim is performed (R188, R190, R191, R198, R199). A claim asks for bytes of one word: an access that crosses a word boundary has been split
there, into a claim on each bank. -/
def Dev.perform (z : Fixed) (d : Dev) (arr bank : Nat) (c : BankClaim) (ecc : WordEcc) : Dev :=
  let a := wordAddr arr bank c.row
  let part := c.partition.map (·.val)
  let st := portStatus z d a c.master part c.proc0
  let zero := List.replicate (arrWord arr) (0 : Byte)
  match c.op with
  | .atomic add w off v =>
    let (r, d) := d.bankAtomic z add c.master part c.proc0 c.flight (a + off) (atomBytes w) v.toNat ecc
    d.emit (.atomicReply r.1 r.2)
  | .read =>
    if st ≠ stOK then ((d.countDenied a).failFlight c.flight st).emit (.bankReply c.master zero false)
    else if d.inWipe a then d.emit (.bankReply c.master zero false)
    else
      let (d, bad) := d.readCheck arr bank c.row c.master 4 ecc
      if bad then (d.failFlight c.flight stSramUncorrectable).emit (.bankReply c.master [] true)
      else d.emit (.bankReply c.master (d.peeks a (arrWord arr)) false)
  | .write bytes =>
    if st ≠ stOK then (d.countDenied a).failFlight c.flight st
    else if d.inWipe a then d
    else
      let bytes := bytes.filter fun p => decide (p.1 < arrWord arr)
      let rmw := partGranule bytes
      let d := if rmw then (d.bumpRmw a).setBusy (bankKey arr bank) (some c.master) else d
      let (d, bad) := if rmw then d.readCheck arr bank c.row c.master 4 ecc else (d, false)
      if bad then (d.failFlight c.flight stSramUncorrectable).emit (.bankReply c.master [] true)
      else bytes.foldl (fun d p => d.bankWrite (a + p.1) [p.2]) d

/-- A master claimed a bank and was not granted: its conflict counter (R193). -/
def Dev.conflict (d : Dev) (arr master : Nat) (atomic : Bool) : Dev :=
  if arr < 256 then d.bump (F.POOL_SP_CNT_CONFLICT arr (master % 8)) 1
  else if arr < 260 then d.bump (F.POOL_DP_CNT_CONFLICT (arr - 256) (master % 69)) 1
  else if atomic then d.bump F.DECK_HOME_CNT_CONFLICT 1 else d

/-- Whether a claim asks for an atomic. -/
def isAtomic (c : BankClaim) : Bool :=
  match c.op with
  | .atomic _ _ _ _ => true
  | _ => false

/-- The claims that wait in a cycle are counted (R193). -/
def Dev.conflicts (d : Dev) (arr : Nat) (cs : List BankClaim) : Dev := cs.foldl (fun d c => d.conflict arr c.master (isAtomic c)) d

/-- Distance of a master from the one granted last, in round-robin order (R193). -/
def robin (n last m : Nat) : Nat := (m + n - last % n - 1) % n

/-- The claim that an arbiter grants: the master nearest after the one it granted last (R35, R193). -/
def grantOf (n last : Nat) : List BankClaim → Option BankClaim
  | [] => none
  | c :: t => match grantOf n last t with
    | none => some c
    | some b => if robin n last b.master < robin n last c.master then some b else some c

/-- Masters of an array (R192); the spec does not number those of the deck home. -/
def arrMasters (arr : Nat) : Nat := if arr < 256 then 8 else if arr < 260 then 69 else 256

/-- The claims that one bank sees in a cycle: one for each master of the array (R193). -/
def oneEach (n : Nat) : List BankClaim → List BankClaim
  | [] => []
  | c :: t => let r := oneEach n t
    if c.master < n then c :: r.filter fun x => x.master ≠ c.master else r

/-- BANK_ACCESS: one cycle of a bank (R193, R195): in the second cycle of a 2-cycle access every claim waits, that of the master whose access it is without
being counted. -/
def Dev.bankAccess (z : Fixed) (d : Dev) (arr bank : Nat) (claims : List BankClaim) (ecc : WordEcc) : Dev :=
  if arrBanks arr ≤ bank then d else
  let key := bankKey arr bank
  let cs := oneEach (arrMasters arr) claims
  match tfind d.pool.busy key with
  | some h => (d.conflicts arr (cs.filter fun c => c.master ≠ h)).setBusy key none
  | none => match grantOf (arrMasters arr) (tget (arrMasters arr - 1) d.pool.lastGrant key) cs with
    | none => d
    | some g =>
      let d := d.conflicts arr (cs.filter fun c => c.master ≠ g.master)
      let d := { d with pool := { d.pool with lastGrant := tset d.pool.lastGrant key g.master } }
      if (arrBanks arr * arrWord arr) * (g.row + 1) ≤ (if arr < 256 then 0x80000 else if arr < 260 then 0x3000000 else 0x400000)
      then d.perform z arr bank g ecc else d

/-- BANK_ACCESS (R188). -/
def execBankAccess (arr : BankArray) (bank : Fin 192) (claims : List BankClaim) (ecc : WordEcc) (s : State) :
    Host.Outcome State Fault Refusal := s.upd fun z d => d.bankAccess z (arrOf arr) bank.val claims ecc

/-- CORRECTION_WRITEBACK (R198): the oldest corrected granule of a bank is written back in a cycle with no granted claim. -/
def execCorrectionWriteback (arr : BankArray) (bank : Fin 192) (s : State) : Host.Outcome State Fault Refusal :=
  s.upd fun _ d =>
    let key := bankKey (arrOf arr) bank.val
    if d.bankBusy key then d else
    match d.pool.writeBack.find? fun x => x.1 = key with
    | some x => { d with pool := { d.pool with writeBack := d.pool.writeBack.erase x } }
    | none => d

/-- A master that alone claims the bank of an address is granted (R193): where the bank is in the second cycle of an access, one cycle later, which is a
conflict unless the access is its own (R212). -/
def Dev.grantAlone (d : Dev) (master a : Nat) : Dev :=
  match d.wordPlace a with
  | none => d
  | some (arr, bank, _) =>
    let key := bankKey arr bank
    let d := match tfind d.pool.busy key with
      | some h => if h = master then d else d.conflict arr master true
      | none => d
    { d.setBusy key none with pool := { (d.setBusy key none).pool with lastGrant := tset d.pool.lastGrant key master } }

/-- An atomic answers its issuer. -/
def Dev.atomicCommand (z : Fixed) (d : Dev) (add : Bool) (who : BankMaster) (proc0 : Bool) (fl : Option Nat) (a : Nat)
    (w : AtomicWidth) (v : BitVec 64) (ecc : WordEcc) : Dev :=
  let (r, d) := (d.grantAlone who.number.val a).bankAtomic z add who.number.val (who.part.map (·.val)) proc0 fl a (atomBytes w) v.toNat ecc
  d.emit (.atomicReply r.1 r.2)

/-- ATOMIC_ADD (R194). -/
def execAtomicAdd (who : BankMaster) (proc0 : Bool) (fl : Option Nat) (a : Nat) (w : AtomicWidth) (v : BitVec 64)
    (ecc : WordEcc) (s : State) : Host.Outcome State Fault Refusal := s.upd fun z d => d.atomicCommand z true who proc0 fl a w v ecc

/-- ATOMIC_SWAP (R194). -/
def execAtomicSwap (who : BankMaster) (proc0 : Bool) (fl : Option Nat) (a : Nat) (w : AtomicWidth) (v : BitVec 64)
    (ecc : WordEcc) (s : State) : Host.Outcome State Fault Refusal := s.upd fun z d => d.atomicCommand z false who proc0 fl a w v ecc

/-- POOL_PATROL_READ (R200): a word of a die pool is read in a free cycle; its errors have no requester. -/
def execPoolPatrolRead (die : Fin 4) (word : Fin 786432) (ecc : WordEcc) (s : State) : Host.Outcome State Fault Refusal :=
  s.upd fun _ d =>
    let bank := word.val % 192
    if !d.bit (F.POOL_DP_SCRUB_EN die.val) || d.bankBusy (bankKey (256 + die.val) bank) then d
    else ((d.bump (F.POOL_DP_CNT_SCRUBBED die.val) 1).readCheck (256 + die.val) bank (word.val / 192) 127 5 ecc).1

/-- BORROW_COPY_DONE (R204): the copy, or the copy back, of a borrowed bank has ended; the switch follows at the next boundary. -/
def execBorrowCopyDone (arr : BankArray) (spare : Fin 4) (s : State) : Host.Outcome State Fault Refusal :=
  s.upd fun _ d => match tfind d.pool.borrows (arrOf arr * 4 + spare.val) with
    | some b => if b.phase = 1 then d else d.setBorrow (arrOf arr) spare.val { b with due := true }
    | none => d

/-! ### Vault wipes (R206 to R208) -/

/-- Causes of a wipe (POOL_VAULT_STATUS). -/
def wipeTamper : Nat := 1
def wipeLifeCycle : Nat := 2
def wipeRequest : Nat := 3
def wipeClearing : Nat := 4

/-- Start, or restart, the wipe of the vault of a die: the sessions whose keys it holds end (R367). -/
def Dev.startWipe (d : Dev) (cause die : Nat) : Dev :=
  let d := d.puts [(F.POOL_VAULT_STATUS_WIPING, setBitAt (d.get F.POOL_VAULT_STATUS_WIPING) die true), (F.POOL_VAULT_STATUS_LAST_CAUSE, cause),
    (F.POOL_VAULT_STATUS_WIPES, d.get F.POOL_VAULT_STATUS_WIPES + 1), (F.POOL_DP_STATUS_WIPING die, 1)]
  { d with mem := Memory.clear d.mem (poolAddr die vaultOff) 0x100000,
           fw := { d.fw with sessions := d.fw.sessions.filter fun s => s.2 ≠ die } }

/-- A wipe of every die's vault (R207). -/
def Dev.wipeAll (d : Dev) (cause : Nat) : Dev := (List.range 4).foldl (fun d die => d.startWipe cause die) d

/-- VAULT_WIPE_REQUEST (R207): a request by Helam processor 0; a host write is discarded. -/
def execVaultWipeRequest (q : Requester) (s : State) : Host.Outcome State Fault Refusal :=
  s.upd fun _ d => if q = .proc 0 then d.wipeAll wipeRequest else d

/-- VAULT_WIPE_END (R206). -/
def execVaultWipeEnd (die : Fin 4) (ok : Bool) (bank : Fin 196) (row : Fin 4096) (s : State) : Host.Outcome State Fault Refusal :=
  s.upd fun _ d =>
    if !d.vaultWiping die.val then d else
    let d := d.puts [(F.POOL_VAULT_STATUS_WIPING, setBitAt (d.get F.POOL_VAULT_STATUS_WIPING) die.val false), (F.POOL_DP_STATUS_WIPING die.val, 0)]
    if ok then d else
    let d := d.puts [(F.POOL_VAULT_STATUS_FAULT, setBitAt (d.get F.POOL_VAULT_STATUS_FAULT) die.val true), (F.POOL_DP_STATUS_VAULT_FAULT die.val, 1)]
    let d := { d with pool := { d.pool with noSecret := if d.pool.noSecret.contains die.val then d.pool.noSecret else die.val :: d.pool.noSecret } }
    ((d.tell 0 8 die.val).tell 5 8 die.val).failRec
      { unit := 5, cls := clsLasting, source := 0xB, action := 0, die := die.val, index := bank.val, addr := row.val }

end Sys2Proof.Machine
end

