-- ==== Sys2Proof/Machine/Wall.lean ====
section
/-! DEFINITION. Sys2Proof/Machine/Wall.lean: stack reads and their errors, wall writes, stripe locks, lost stacks and rebuild (R221 to R234). -/
namespace Sys2Proof.Machine

open Sys2Proof

/-! ### Stacks that leave and return (R228 to R231) -/

/-- A wall has failed: every access ends with MEM_UNAVAILABLE, and the health processor is told (R231). -/
def Dev.wallFail (d : Dev) (w : Nat) : Dev := (d.put (F.MEM_WALL_STATUS_STATE w) wallFailed).tell 5 11 w

/-- Stack `s` leaves service (R229, R231). -/
def Dev.wallLose (d : Dev) (s : Nat) : Dev :=
  let w := s / 12
  let l := s % 12
  let st := d.wallState w
  if st = wallNormal then
    let d := d.put (F.MEM_WALL_STATUS_MISSING w) l
    if d.wallParity w then d.put (F.MEM_WALL_STATUS_STATE w) wallDegraded else d.wallFail w
  else if st = wallDegraded ∨ st = wallRebuilding then
    if d.get (F.MEM_WALL_STATUS_MISSING w) = l then d.put (F.MEM_WALL_STATUS_STATE w) wallDegraded
    else (d.put (F.MEM_WALL_STATUS_SECOND w) l).wallFail w
  else d

/-- Stack `s` is ON again: its degraded wall rebuilds (R230). -/
def Dev.wallReturn (d : Dev) (s : Nat) : Dev :=
  let w := s / 12
  if d.wallState w = wallDegraded ∧ d.get (F.MEM_WALL_STATUS_MISSING w) = s % 12 then
    d.puts [(F.MEM_WALL_STATUS_STATE w, wallRebuilding), (F.MEM_WALL_REBUILD_STRIPE w, 0)]
  else d

def stripesPerWall : Nat := 100663296

/-- One stripe of a rebuilding wall (R230). A unit rebuilt from one that reads cannot correct cannot be read either (log entry 268: DESIGN CHOICE). -/
def Dev.rebuildStripe (d : Dev) (w : Nat) : Dev :=
  if d.wallState w ≠ wallRebuilding then d else
  let S := d.get (F.MEM_WALL_REBUILD_STRIPE w)
  let l := d.get (F.MEM_WALL_STATUS_MISSING w)
  let bad := d.othersBad w S l
  let d := { d with mem := (List.range 256).foldl (fun m b => d.cellMem m (12 * w + l) S b (d.xorOthers w S b l)) d.mem }
  let d := d.bumps (((List.range 12).filter fun k => k ≠ l).map fun k => F.MEM_STACK_CNT_READ_UNITS (12 * w + k))
  let d := d.unitsWritten w [(l, S)]
  let d := if bad = [] then d else
    let d := d.badAgain w S 1 bad
    { d with wall := { d.wall with badUnits := tset d.wall.badUnits (unitKey w S l) 0 } }
  let d := (d.bump (F.MEM_WALL_CNT_REBUILT w) 1).put (F.MEM_WALL_REBUILD_STRIPE w) (S + 1)
  if stripesPerWall ≤ S + 1 then d.puts [(F.MEM_WALL_STATUS_STATE w, wallNormal), (F.MEM_WALL_STATUS_MISSING w, 0xF)] else d

/-- REBUILD_STEP: the step waits for the lock of its stripe (R222, R230). -/
def Dev.rebuildStep (d : Dev) (w : Nat) : Dev :=
  let S := d.get (F.MEM_WALL_REBUILD_STRIPE w)
  if d.wallState w ≠ wallRebuilding then d
  else if d.wall.waiting.contains ⟨w, S, .rebuild⟩ then d
  else if d.stripeWaits w S then d.await w S .rebuild
  else d.rebuildStripe w

/-- REBUILD_STEP (R230). -/
def execRebuildStep (w : Fin 2) (s : State) : Host.Outcome State Fault Refusal := s.upd fun _ d => d.rebuildStep w.val

/-! ### Errors (R226, R227) -/

/-- Rebuild a unit from the other 11 of its stripe under the stripe lock: the units read, the write back and the check (R227). The store holds what
the check bits stand for, so the bytes it gives do not change. -/
def Dev.reconstruct (d : Dev) (w S l : Nat) : Dev :=
  let others := (List.range 12).filter fun k => k ≠ l
  let d := d.bumps (others.map fun k => F.MEM_STACK_CNT_READ_UNITS (12 * w + k))
  let d := d.bumps [F.MEM_STACK_CNT_RECONSTRUCTED (12 * w + l), F.MEM_STACK_CNT_WRITE_UNITS (12 * w + l), F.MEM_STACK_CNT_READ_UNITS (12 * w + l)]
  { d with wall := { d.wall with badUnits := terase d.wall.badUnits (unitKey w S l) } }

/-- A unit of the stripe on another local stack than `l` turns out to be one that reads cannot correct (R227). -/
def Dev.newBad (d : Dev) (w S l : Nat) (other : Option Nat) : Dev :=
  match other with
  | some k => if k = l ∨ d.missing w S = some k ∨ d.unitBad w S k then d else { d with wall := { d.wall with badUnits := tset d.wall.badUnits (unitKey w S k) 0 } }
  | none => d

/-- What the check bits of a unit read lead to: the state after it, and whether the unit could not be read (R226, R227). `source` is the SOURCE code
of MEM_STACK_ERR, `last` the correction of the unit that its read before met, `other` a local stack of the wall whose unit of the stripe cannot be read
either. A corrected granule is written back at once (log entry 267: DESIGN CHOICE). A unit that could not be corrected keeps its contents, and later reads
of it fail the same way until it is rewritten. -/
def Dev.unitCheck (d : Dev) (s S granule source : Nat) (ecc : EccResult) (last : Option Nat) (other : Option Nat) : Dev × Bool :=
  let key := unitKey 0 S s
  let recSrc := if source = 2 then 5 else 4
  let w := s / 12
  let l := s % 12
  let known := d.unitBad w S l
  let d := { d with wall := { d.wall with lastCorr := terase d.wall.lastCorr key } }
  match if known then .lasting else ecc with
  | .clean => (d, false)
  | .corrected b =>
    let d := (d.stackError s S granule 1 b source).bump (F.MEM_STACK_CNT_WRITE_UNITS s) 1
    if last = some (granule * 128 + b) then
      let d := (d.tell 5 9 key).addCandidate (candCode 6 (s / 6) s 0 0 0 S)
      (d.stackRecord s S clsLasting recSrc 7 (72 * granule + b), false)
    else
      let d := { d with wall := { d.wall with lastCorr := tset d.wall.lastCorr key (granule * 128 + b) } }
      (d.stackRecord s S clsTransient recSrc 1 (72 * granule + b), false)
  | .transient => ((d.stackError s S granule 2 0 source).stackRecord s S clsTransient recSrc 1 0xFFFF, false)
  | .lasting =>
    let granule := if known then tget granule d.wall.badUnits key else granule
    let d := d.unitLasting s S granule source
    let mine := fun (d : Dev) => { d with wall := { d.wall with badUnits := tset d.wall.badUnits key granule } }
    if !d.wallParity w || d.wallState w ≠ wallNormal || known then (mine d, true)
    else
      let d := d.newBad w S l other
      if d.othersBad w S l ≠ [] then ((mine d).badAgain w S 1 (d.othersBad w S l), true)
      else if d.stripeWaits w S then (d.await w S (.reconstruct l), false)
      else (d.reconstruct w S l, false)

/-- The on-die ECC of a stack reports a severity with a read (R225, log entry 243: DESIGN CHOICE). -/
def Dev.countOnDie (d : Dev) (s : Nat) (severe : Bool) : Dev := if severe then d.bump (F.MEM_STACK_CNT_ONDIE s) 1 else d

/-- STACK_READ: the unit that holds a device address is read for a requester (R220, R221, R223, R226, R227, R229). -/
def Dev.stackRead (z : Fixed) (d : Dev) (a : Nat) (part : Option Nat) (fl : Option Nat) (source granule : Nat) (ecc : EccResult)
    (other : Option Nat) (severe : Bool) : Dev :=
  match d.region a with
  | .wall w off =>
    let st := accessStatus z d part a
    if st ≠ stOK then ((d.denied a st).failFlight fl st).emit (.unitReply (List.replicate 256 0) false)
    else
      let p := d.wallParity w
      let base := a - off % 256
      let (S, _, l, _) := wallPlace p off
      let gone : Bool := d.missing w S = some l
      let last := tfind d.wall.lastCorr (unitKey w S l)
      let d := d.touch base 256
      let (d, bad) := if gone then
          let d := d.newBad w S l other
          (d.badAgain w S 1 (d.othersBad w S l), decide (d.othersBad w S l ≠ []))
        else (d.countOnDie (12 * w + l) severe).unitCheck (12 * w + l) S granule source ecc last other
      if bad then
        let d := if fl.isSome then d.bump (F.MEM_WALL_CNT_UNCORRECTABLE w) 1 else d
        (d.failFlight fl stMemUncorrectable).emit (.unitReply [] true)
      else d.emit (.unitReply (d.peeks base 256) false)
  | _ => d.failFlight fl stAddressFault

/-- STACK_READ (R221). -/
def execStackRead (a : Nat) (part : Option (Fin 4)) (fl : Option Nat) (source : Fin 5) (granule : Fin 32) (ecc : EccResult) (other : Option (Fin 12))
    (severe : Bool) (s : State) : Host.Outcome State Fault Refusal :=
  s.upd fun z d => d.stackRead z a (part.map (·.val)) fl source.val granule.val ecc (other.map (·.val)) severe

/-- STACK_PATROL_READ (R234): a unit of an ON stack that its wall does not treat as missing. -/
def execStackPatrolRead (st : Fin 24) (S : Fin 100663296) (granule : Fin 32) (ecc : EccResult) (other : Option (Fin 12)) (severe : Bool) (s : State) :
    Host.Outcome State Fault Refusal :=
  s.upd fun _ d =>
    if !d.bit F.MEM_SCRUB_EN || d.get (F.MEM_STACK_STATE_STATE st.val) ≠ codeON || d.missing (st.val / 12) S.val = some (st.val % 12) then d
    else (((d.bumps [F.MEM_STACK_CNT_SCRUBBED st.val, F.MEM_STACK_CNT_READ_UNITS st.val]).countOnDie st.val severe).unitCheck st.val S.val granule.val 2 ecc
      (tfind d.wall.lastCorr (unitKey 0 S.val st.val)) (other.map (·.val))).1

/-! ### Writes (R222 to R224) -/

/-- WALL_WRITE: a write of consecutive bytes of a wall; `held` names stripes whose locks are held as it arrives (R222). -/
def Dev.wallRequest (z : Fixed) (d : Dev) (a : Nat) (bytes : List Byte) (part : Option Nat) (fl : Option Nat) (held : List Nat) : Dev :=
  match rangeStatus z d part a bytes.length with
  | some (x, st) => (d.denied x st).failFlight fl st
  | none => match d.region a with
    | .wall _ _ => d.storeHeld held fl a bytes
    | _ => d.failFlight fl stAddressFault

/-- WALL_WRITE (R223). -/
def execWallWrite (a : Nat) (bytes : List Byte) (part : Option (Fin 4)) (fl : Option Nat) (held : List (Fin 100663296)) (s : State) :
    Host.Outcome State Fault Refusal := s.upd fun z d => d.wallRequest z a bytes (part.map (·.val)) fl (held.map (·.val))

/-- A request that waited holds the lock of its stripe (R222, R223, R230). In a wall that has failed the operation that wrote ends (R231). -/
def Dev.lockedWork (d : Dev) (w S : Nat) (k : WallWork) : Dev :=
  match k with
  | .write fl bytes => if d.wallGone w then d.failFlight fl stMemUnavailable else d.stripeWrite fl w S bytes
  | .close => match d.slotOf w S with
    | some t => d.closeSlot t
    | none => d
  | .reconstruct l => if d.wallState w = wallNormal then d.reconstruct w S l else d
  | .rebuild => if d.get (F.MEM_WALL_REBUILD_STRIPE w) = S then d.rebuildStripe w else d

/-- STRIPE_LOCK_GRANT (R222): the first request that waits for a stripe is served; the cycles it waited are counted. -/
def execStripeLockGrant (w : Fin 2) (S : Fin 100663296) (cycles : Nat) (s : State) : Host.Outcome State Fault Refusal :=
  s.upd fun _ d => match d.wall.waiting.find? fun r => r.wall = w.val && r.stripe = S.val with
    | some r =>
      let d := { d with wall := { d.wall with waiting := d.wall.waiting.erase r } }
      (d.bump (F.MEM_WALL_CNT_LOCK_WAIT w.val) cycles).lockedWork w.val S.val r.work
    | none => d

/-- ASSEMBLY_SLOT_TIMEOUT (R223): the slot of a stripe closes as a partial write. -/
def execAssemblySlotTimeout (w : Fin 2) (S : Fin 100663296) (s : State) : Host.Outcome State Fault Refusal :=
  s.upd fun _ d => match d.slotOf w.val S.val with
    | some t => (d.askClose t).bump (F.MEM_WALL_CNT_ASM_TIMEOUT w.val) 1
    | none => d

/-! ### Link errors (R228) -/

/-- STACK_LINK_PARITY_ERROR (R228): the command is reissued once; a second error on the reissue takes the stack out of service. -/
def execStackLinkParityError (st : Fin 24) (reissueFails : Bool) (s : State) : Host.Outcome State Fault Refusal :=
  s.upd fun _ d =>
    let n := st.val
    if d.get (F.MEM_STACK_STATE_STATE n) ≠ codeON then d else
    let d := d.bump (F.MEM_STACK_CNT_LINK_RETRY n) 1
    if !reissueFails then d.stackRecord n 0 clsTransient 9 1 0xFFFF else
    let d := (d.puts [(F.MEM_STACK_STATE_EN n, 0), (F.MEM_STACK_STATE_STATE n, codeSTOPPING)]).wallLose n
    let d := { d with wall := { d.wall with dropped := n :: d.wall.dropped } }
    (d.tell 5 10 n).stackRecord n 0 clsLasting 9 0 0xFFFF

end Sys2Proof.Machine
end

