-- ==== Sys2Proof/Machine/Health.lean ====
section
/-! DEFINITION. Sys2Proof/Machine/Health.lean: slices of macros and banks (R399 to R406), known-sum checks (R410 to R412), the test engine (R415). -/
namespace Sys2Proof.Machine

open Sys2Proof

/-! ### Starting a macro slice (R400) -/

/-- The logical macro whose duty a physical macro of a core holds by the repair table. -/
def Dev.dutyOf (d : Dev) (n p : Nat) : Option Nat := (List.range 64).find? fun m => d.get (F.CIM_MAP_PHYSICAL n m) = p

/-- Whether a swap stands in the bank order of a macro. -/
def Dev.swapWaits (d : Dev) (n m : Nat) : Bool := (firstSwap (d.macroRun n m).order).isSome

/-- A macro that a slice may take: no write in progress, no swap waiting, no streaming operation on the streaming macros (R400). -/
def Dev.sliceReady (d : Dev) (n m : Nat) : Bool :=
  (d.macroRun n m).write.isNone && (d.macroRun n m).waiting.isEmpty && !d.swapWaits n m &&
    !(decide (56 ≤ m) && d.streamHeld n m (.desc 0))

/-- Begin a slice: the spare is borrowed and the copy begins (R401). -/
def Dev.beginSlice (d : Dev) (n m spare : Nat) (targeted repairOnly te : Bool) : Dev :=
  let d := { d with hlt := { d.hlt with
    slices := tset d.hlt.slices n { macroIx := m, spare := spare, phase := 1, targeted := targeted, repairOnly := repairOnly, te := te },
    targeted := d.hlt.targeted.filter (· ≠ n * 68 + m), mustRepair := d.hlt.mustRepair.filter (· ≠ n * 68 + m) } }
  d.puts [(F.CIM_MAP_BORROWED n spare, 1), (F.HLT_CORE_SLICE_MACRO n, d.get (F.CIM_MAP_PHYSICAL n m)), (F.HLT_CORE_SLICE_PHASE n, 1),
    (F.HLT_CORE_SLICE_SPARE n, spare), (F.HLT_CORE_SLICE_TARGETED n, b01 targeted)]

/-- The next physical macro of a core that holds duty, from a start index; a search that passes 67 begins again at 0 and counts a pass. -/
def Dev.nextDuty (d : Dev) (n start : Nat) : Option (Nat × Nat × Bool) :=
  let at_ := fun (l : List Nat) => l.findSome? fun p => (d.dutyOf n p).map fun m => (p, m)
  match at_ ((List.range 68).filter fun p => decide (start ≤ p)) with
  | some x => some (x.1, x.2, false)
  | none => (at_ (List.range 68)).map fun x => (x.1, x.2, true)

/-- MACRO_SLICE_START (R400): a targeted slice before the next macro in order; a macro that is not ready is left until the next interval. -/
def Dev.sliceStart (d : Dev) (n : Nat) : Dev :=
  if !d.bit F.HLT_SLICE_CFG_EN || !d.isOn (.proc 5) || (tfind d.hlt.slices n).isSome || (d.hlt.coreMoves.any fun x => x.1 = n) then d else
  match d.hlt.targeted.find? fun k => k / 68 = n && d.sliceReady n (k % 68) with
  | some k =>
    match d.freeMacros n with
    | s :: _ => d.beginSlice n (k % 68) s true (d.hlt.mustRepair.contains k) false
    | [] =>
      let d := { d with hlt := { d.hlt with targeted := d.hlt.targeted.filter (· ≠ k), mustRepair := d.hlt.mustRepair.filter (· ≠ k) } }
      d.coreRepair n
  | none =>
    match d.nextDuty n (tget 0 d.hlt.nextMacro n) with
    | none => d
    | some (p, m, wrapped) =>
      match d.freeMacros n with
      | s :: _ =>
        if d.sliceReady n m then
          let d := if wrapped then d.put (F.HLT_CORE_PASS_PASSES n) (d.get (F.HLT_CORE_PASS_PASSES n) + 1) else d
          let d := { d with hlt := { d.hlt with nextMacro := tset d.hlt.nextMacro n (p + 1) } }
          d.beginSlice n m s false false false
        else d
      | [] => d

/-- MACRO_SLICE_START (R400). -/
def execMacroSliceStart (n : Fin 256) (s : State) : Host.Outcome State Fault Refusal := s.upd fun _ d => d.sliceStart n.val

/-! ### Copies and rebuilt rows (R401, R403) -/

/-- A row that the provenance record of a bank rebuilds: its cells with parities (R403). -/
def rebuiltRow (z : Fixed) (d : Dev) (p : Provenance) (r : Nat) : Option Nat :=
  let w := slotWidth p.slot
  let rb := srcRowBytes p.fmt w
  if (readStatus z d none p.addr (p.rows * rb)).isSome || crc32c (d.peeks p.addr (p.rows * rb)) ≠ p.crc then none
  else some (withParity (if r < p.rows then (rowImage p.fmt w (d.peekNat (p.addr + r * rb) rb)).1 else 0))

/-- A weight set is lost in a bank: a row could not be rebuilt (R403). -/
def Dev.weightLost (d : Dev) (n m bank : Nat) : Dev :=
  let wsid := d.get (cimWSID n m bank)
  let d := d.puts [(F.HLT_WEIGHT_LOST_CORE, n), (F.HLT_WEIGHT_LOST_MACRO, m), (F.HLT_WEIGHT_LOST_BANK, bank), (F.HLT_WEIGHT_LOST_WSID, wsid),
    (F.HLT_WEIGHT_LOST_COURSE_LOW, d.course)]
  let d := (d.bump F.HLT_CNT_WEIGHT_LOST 1).failRec
    { unit := 0xA, cls := clsLasting, source := 2, action := 0xB, die := n / 64, index := n, sub := m, addr := wsid, logical := n }
  d.hltEvent F.HLT_EVENT_WEIGHT_LOST

/-- A row whose parities fail on two reads in a copy: rebuilt, or the bank is lost (R403). The cells of a row that is not rebuilt are free. -/
def Dev.lostRow (z : Fixed) (d : Dev) (n : Nat) (sl : Slice) (src dst bank r : Nat) : Dev × List Nat :=
  match (tfind d.hlt.provenance src).bind fun p => rebuiltRow z d p r with
  | some v =>
    let d := { d with cells := setCells d.cells (dst + r) v }
    let d := (d.bump F.HLT_CNT_ROWS_REBUILT 1).failRec
      { unit := 1, cls := clsLasting, source := 2, action := 6, die := n / 64, index := d.get (F.CORE_ID_PHYSICAL n),
        sub := src / 1024 % 68, addr := bank * 512 + r, logical := n }
    (d, [])
  | none =>
    let (a, d) := d.drawFree
    let (b, d) := d.drawFree
    let (c, d) := d.drawFree
    let (e, d) := d.drawFree
    let d := { d with cells := setCells d.cells (dst + r) (withParity (a.toNat + b.toNat * 2 ^ 64 + c.toNat * 2 ^ 128 + e.toNat * 2 ^ 192)) }
    (d.weightLost n sl.macroIx bank, [bank])

/-- Copy both banks from one physical macro of a core to another; the listed rows have lost their contents (R401, R403). -/
def Dev.sliceCopy (z : Fixed) (d : Dev) (n : Nat) (sl : Slice) (src dst : Nat) (lost : List (Nat × Nat)) : Dev × List Nat :=
  let key := fun (pm b : Nat) => rowKey (n / 64) (d.get (F.CORE_ID_PHYSICAL n)) pm b 0
  let d := [0, 1].foldl (fun d b => d.copyBank (key src b) (key dst b)) d
  lost.foldl (fun (acc : Dev × List Nat) x =>
    let (d, l) := Dev.lostRow z acc.1 n sl (key src x.1) (key dst x.1) x.1 x.2
    (d, acc.2 ++ l)) (d, [])

def Dev.setSlice (d : Dev) (n : Nat) (sl : Slice) : Dev := { d with hlt := { d.hlt with slices := tset d.hlt.slices n sl } }

/-- SLICE_COPY_DONE (R401): the spare holds both banks; the Handover is due at the next boundary. -/
def execSliceCopyDone (n : Fin 256) (lost : List (Fin 2 × Fin 512)) (s : State) : Host.Outcome State Fault Refusal :=
  s.upd fun z d => match tfind d.hlt.slices n.val with
    | none => d
    | some sl =>
      if sl.phase ≠ 1 then d else
      let (d, l) := d.sliceCopy z n.val sl (d.dutyMacro n.val sl.macroIx) sl.spare (lost.map fun x => (x.1.val, x.2.val))
      (d.setSlice n.val { sl with phase := 2, due := true, lost := l }).put (F.HLT_CORE_SLICE_PHASE n.val) 2

/-- SLICE_COPY_BACK_DONE (R401, R402): a bank that was written meanwhile is copied again first. -/
def execSliceCopyBackDone (n : Fin 256) (lost : List (Fin 2 × Fin 512)) (s : State) : Host.Outcome State Fault Refusal :=
  s.upd fun z d => match tfind d.hlt.slices n.val with
    | none => d
    | some sl =>
      if sl.phase ≠ 4 || sl.due || (d.macroRun n.val sl.macroIx).write.isSome then d
      else if sl.restart ≠ [] then d.setSlice n.val { sl with restart := [] }
      else
        let (d, l) := d.sliceCopy z n.val sl sl.spare (d.get (F.CIM_MAP_PHYSICAL n.val sl.macroIx)) (lost.map fun x => (x.1.val, x.2.val))
        d.setSlice n.val { sl with due := true, lost := l }

/-! ### Test, handover, restore (R401, R404, R406) -/

/-- What the march and the logic check found first: whether in the logic check, bank, row (or row group), cell (or column), whether it failed again. -/
abbrev MarchFail := Bool × Fin 2 × Fin 512 × Fin 258 × Bool

/-- SLICE_TEST_DONE (R404): failures are classified; the copy back begins. -/
def execSliceTestDone (n : Fin 256) (fails : List MarchFail) (s : State) : Host.Outcome State Fault Refusal :=
  s.upd fun _ d => match tfind d.hlt.slices n.val with
    | none => d
    | some sl =>
      if sl.phase ≠ 3 || sl.te then d else
      let d := fails.foldl (fun (d : Dev) (x : MarchFail) =>
        let (logic, b, r, c, lasting) := x
        let d := if lasting then d else d.bump F.HLT_CNT_SLICE_TRANSIENT 1
        d.failRec { unit := if logic then 2 else 1, cls := if lasting then clsLasting else clsTransient, source := 1,
                    action := if lasting then 4 else 1, die := n.val / 64, index := d.get (F.CORE_ID_PHYSICAL n.val),
                    sub := d.get (F.CIM_MAP_PHYSICAL n.val sl.macroIx), addr := if logic then r.val else b.val * 512 + r.val, bitNo := c.val,
                    logical := n.val }) d
      (d.setSlice n.val { sl with phase := 4, due := false, restart := [], failed := fails.any fun x => x.2.2.2.2 }).put
        (F.HLT_CORE_SLICE_PHASE n.val) 4

/-- A slice ends: the spare, unless it now serves the macro, is free; an alarm has ended when none of its slices is outstanding. -/
def Dev.endSlice (d : Dev) (n : Nat) (sl : Slice) : Dev :=
  let d := ((d.releaseSlice n).setHold (macroWord n sl.macroIx) holdHealth false).bump F.HLT_CNT_SLICES 1
  if d.hlt.targeted = [] ∧ ¬ d.hlt.slices.any (fun p => p.2.targeted) then d.put F.HLT_CHECK_STATUS_ALARM_ACTIVE 0 else d

/-- The repair at the end of a slice (R406, R407): the macro stays on the spare, unless that would take the last unassigned one; then the core is
repaired, and the slice stays until the core has moved. -/
def Dev.sliceRepair (d : Dev) (n : Nat) (sl : Slice) : Dev :=
  if 2 ≤ (d.unassigned n).length then (d.macroRepair n sl.macroIx sl.spare).endSlice n sl
  else
    let d := (d.setSlice n { sl with due := false }).coreRepair n
    if d.hlt.coreMoves.any fun x => x.1 = n then d
    else
      let d := { d with hlt := { d.hlt with duty := terase d.hlt.duty (n * 68 + sl.macroIx) } }
      d.endSlice n sl

/-- Banks whose copy lost a row are not VALID (R403). -/
def Dev.loseBanks (d : Dev) (n m : Nat) (l : List Nat) : Dev := l.foldl (fun d b => d.setBank n m b 0 0 (d.get (cimSLOT n m b))) d

/-- What a boundary does with the slice of a core (R26, R401, R402, R406): SLICE_HANDOVER, SLICE_RESTORE. -/
def Dev.sliceBoundary (d : Dev) (n : Nat) (sl : Slice) : Dev :=
  if !sl.due || d.swapWaits n sl.macroIx then d
  else if sl.phase = 2 then
    let d := { d with hlt := { d.hlt with duty := tset d.hlt.duty (n * 68 + sl.macroIx) sl.spare } }
    let d := (d.setHold (macroWord n sl.macroIx) holdHealth true).loseBanks n sl.macroIx sl.lost
    let sl := { sl with phase := 3, due := false, lost := [] }
    let d := (d.setSlice n sl).put (F.HLT_CORE_SLICE_PHASE n) 3
    if sl.repairOnly then d.sliceRepair n sl else d
  else if sl.phase = 4 then
    if sl.failed then d.sliceRepair n sl
    else
      let d := { d with hlt := { d.hlt with duty := terase d.hlt.duty (n * 68 + sl.macroIx) } }
      (d.loseBanks n sl.macroIx sl.lost).endSlice n sl
  else d

/-- Every slice at a boundary. -/
def Dev.sliceBoundaries (d : Dev) : Dev := d.hlt.slices.foldl (fun d p => d.sliceBoundary p.1 p.2) d

/-! ### Slices of banks (R405) -/

/-- BANK_SLICE_START (R405): an unassigned spare bank is borrowed for one bank of a scratchpad or die pool. -/
def execBankSliceStart (arr : BankArray) (bank : Fin 192) (s : State) : Host.Outcome State Fault Refusal :=
  s.upd fun _ d =>
    let a := arrOf arr
    let en := if a < 256 then d.bit F.HLT_SLICE_CFG_SP_EN else d.bit F.HLT_SLICE_CFG_DP_EN
    if 260 ≤ a || !en || !d.isOn (.proc 5) || decide (arrBanks a ≤ bank.val) || d.bankBorrowed a bank.val ||
        (d.pool.borrows.any fun p => p.1 / 4 = a && p.2.why = 0) then d
    else match d.freeBanks a with
      | sp :: _ => d.startBorrow a sp bank.val 0 0
      | [] => d

/-- The test of a borrowed bank has ended: a lasting fault is repaired while the bank is redirected (R202, R404, R405); the copy back begins. -/
def Dev.bankTested (d : Dev) (arr spare : Nat) (b : Borrow) (fail : Option (Nat × Nat × Bool)) : Dev :=
  let back := fun (d : Dev) =>
    let d := (d.setBorrow arr spare { b with phase := 2, due := false }).showBorrow arr spare b.bank true true
    if b.why = 0 then d.showBankSlice arr b.bank 3 else d
  match fail with
  | none => back d
  | some (row, _, false) => back ((d.bump F.HLT_CNT_SLICE_TRANSIENT 1).arrayRecord arr (d.homeBank arr b.bank) row clsTransient 1 1 0xFFFF)
  | some (row, col, true) =>
    match d.freeColumn arr b.bank with
    | some e => back ((d.arrayRecord arr (d.homeBank arr b.bank) row clsLasting 1 2 col).columnEntry arr b.bank e col)
    | none =>
      if arr < 256 then back ((d.arrayRecord arr (d.homeBank arr b.bank) row clsLasting 1 5 col).coreRepair arr)
      else if 2 ≤ d.sparesLeft (arr - 256) then
        let d := (d.arrayRecord arr (d.homeBank arr b.bank) row clsLasting 1 3 col).assignBank arr spare b.bank
        if b.why = 0 then (d.showBankSlice arr b.bank 0).bump F.HLT_CNT_SLICES 1 else d
      else back (d.arrayRecord arr (d.homeBank arr b.bank) row clsLasting 1 0 col)

/-- BANK_SLICE_TEST_DONE (R405). The failure names a row, a bit column, and whether it failed again. -/
def execBankSliceTestDone (arr : BankArray) (spare : Fin 4) (fail : Option (Fin 4096 × Fin 576 × Bool)) (s : State) :
    Host.Outcome State Fault Refusal :=
  s.upd fun _ d => match tfind d.pool.borrows (arrOf arr * 4 + spare.val) with
    | some b => if b.phase ≠ 1 || b.why ≠ 0 then d
        else d.bankTested (arrOf arr) spare.val b (fail.map fun x => (x.1.val, x.2.1.val, x.2.2))
    | none => d

/-! ### Known-sum checks (R410 to R412) -/

/-- Whether known-sum checks are in force, or this macro awaits a targeted slice of an alarm (R410, R413). -/
def Dev.ksDue (d : Dev) (n m : Nat) : Bool := decide (2 ≤ d.get F.HLT_CHECK_STATUS_MODE_EFF) || d.hlt.targeted.contains (n * 68 + m)

/-- KNOWN_SUM_CHECK: one check of a macro's active bank with the even or odd pattern; `found` is what a faulty array gives instead of its sum. -/
def Dev.knownSum (d : Dev) (n m odd : Nat) (idle : Bool) (found : Option Nat) : Dev :=
  if !d.ksDue n m || !d.macroOn n m then d
  else if !idle then d.bump F.HLT_CNT_KS_SKIPPED 1
  else
    let bank := d.activeBank n m
    let expect := d.get (if odd = 0 then ksEven n m bank else ksOdd n m bank)
    let got := found.getD (ksObserved d n m bank odd)
    let key := (n * 68 + m) * 2 + odd
    let d := d.bump F.HLT_CNT_KS_CHECKS 1
    let again := d.hlt.ksRepeat.contains key
    let clear := fun (d : Dev) => { d with hlt := { d.hlt with ksRepeat := d.hlt.ksRepeat.filter (· ≠ key) } }
    let rec_ := fun (d : Dev) (cls action : Nat) => d.failRec
      { unit := 1, cls := cls, source := 6, action := action, die := n / 64, index := d.get (F.CORE_ID_PHYSICAL n), sub := d.dutyMacro n m,
        addr := tget 0 d.hlt.ksLast key, logical := n, expected := expect, observed := got }
    if got = expect then
      let d := if again then rec_ (clear d) clsTransient 1 else d
      { d with hlt := { d.hlt with ksLast := tset d.hlt.ksLast key (d.course % 2 ^ 32) } }
    else
      let d := d.bump F.HLT_CNT_KS_MISMATCH 1
      if again then rec_ ((clear d).askRepair n m).alarm clsAlarm 0xA
      else { d with hlt := { d.hlt with ksRepeat := key :: d.hlt.ksRepeat } }

/-- KNOWN_SUM_CHECK (R412). -/
def execKnownSumCheck (n : Fin 256) (m : Fin 64) (odd : Fin 2) (idle : Bool) (found : Option (BitVec 32)) (s : State) :
    Host.Outcome State Fault Refusal := s.upd fun _ d => d.knownSum n.val m.val odd.val idle (found.map (·.toNat))

/-! ### The test engine (R415) -/

/-- Whether the test engine takes commands: in TEST and RETURN, and in BLANK from the factory test port. -/
def Dev.teOpen (d : Dev) (factory : Bool) : Bool :=
  let st := d.get F.LCS_STATE_STATE
  st = 1 || st = 4 || (st = 0 && factory)

/-- A write of HLT_TE_CMD: refused by life-cycle state, or started. A write while a command runs is discarded. -/
def Dev.teStart (d : Dev) (factory : Bool) (cmd target : Nat) (go : Dev → Dev) : Dev :=
  if !d.teOpen factory then d.put F.HLT_TE_STATUS_REFUSED 1
  else if d.bit F.HLT_TE_STATUS_BUSY || bitsAt cmd 0 4 ≠ target || 5 < bitsAt cmd 24 4 then d
  else
    let d := d.puts [(F.HLT_TE_CMD_TARGET, target), (F.HLT_TE_CMD_DIE, bitsAt cmd 4 3), (F.HLT_TE_CMD_STOP_ON_FAIL, bitsAt cmd 7 1),
      (F.HLT_TE_CMD_UNIT, bitsAt cmd 8 7), (F.HLT_TE_CMD_ELEMENT, bitsAt cmd 16 8), (F.HLT_TE_CMD_ALGO, bitsAt cmd 24 4),
      (F.HLT_TE_CMD_COUNT, bitsAt cmd 32 32), (F.HLT_TE_STATUS_BUSY, 1), (F.HLT_TE_STATUS_DONE, 0), (F.HLT_TE_STATUS_FAIL, 0),
      (F.HLT_TE_STATUS_FAILS, 0)]
    go { d with hlt := { d.hlt with te := some cmd } }

/-- The logical core that a physical core of a compute die serves; no other die identifier names a core (R13). -/
def Dev.coreOfPhysical (d : Dev) (die p : Nat) : Option Nat :=
  if 4 ≤ die then none else ((List.range 64).map (64 * die + ·)).find? fun n => d.get (F.CORE_ID_PHYSICAL n) = p

/-- TARGET 0x1 (R415): a macro that holds duty is tested through a slice. -/
def Dev.teMacroBank (d : Dev) (factory : Bool) (cmd : Nat) : Dev :=
  d.teStart factory cmd 1 fun d =>
    match d.coreOfPhysical (bitsAt cmd 4 3) (bitsAt cmd 8 7) with
    | none => d
    | some n => match d.dutyOf n (bitsAt cmd 17 7), d.freeMacros n with
      | some m, sp :: _ => if (tfind d.hlt.slices n).isNone && d.sliceReady n m then d.beginSlice n m sp false false true else d
      | _, _ => d

/-- TE_MACRO_BANK (R415). -/
def execTeMacroBank (factory : Bool) (cmd : BitVec 64) (s : State) : Host.Outcome State Fault Refusal :=
  s.upd fun _ d => d.teMacroBank factory cmd.toNat

/-- TARGET 0x2 (R415): the bank is tested through a borrow. -/
def Dev.teScratchpadBank (d : Dev) (factory : Bool) (cmd : Nat) : Dev :=
  d.teStart factory cmd 2 fun d =>
    let bank := bitsAt cmd 16 8
    match d.coreOfPhysical (bitsAt cmd 4 3) (bitsAt cmd 8 7) with
    | none => d
    | some n => match d.freeBanks n with
      | sp :: _ => if bank < 16 ∧ ¬ d.bankBorrowed n bank then d.startBorrow n sp bank 3 0 else d
      | [] => d

/-- TE_SCRATCHPAD_BANK (R415). -/
def execTeScratchpadBank (factory : Bool) (cmd : BitVec 64) (s : State) : Host.Outcome State Fault Refusal :=
  s.upd fun _ d => d.teScratchpadBank factory cmd.toNat

/-- TARGET 0x3 (R415): the bank is tested through a borrow; vault rows are wiped before the engine sees them (R205). -/
def Dev.teDiePoolBank (d : Dev) (factory : Bool) (cmd : Nat) : Dev :=
  d.teStart factory cmd 3 fun d =>
    let bank := bitsAt cmd 16 8
    let arr := 256 + bitsAt cmd 4 3
    if 260 ≤ arr then d else
    match d.freeBanks arr with
    | sp :: _ => if bank < 192 ∧ ¬ d.bankBorrowed arr bank then d.startBorrow arr sp bank 3 0 else d
    | [] => d

/-- TE_DIE_POOL_BANK (R415). -/
def execTeDiePoolBank (factory : Bool) (cmd : BitVec 64) (s : State) : Host.Outcome State Fault Refusal :=
  s.upd fun _ d => d.teDiePoolBank factory cmd.toNat

/-- What a command leaves in the units of a stack (HLT_TE_CMD.ALGO): ALGO write leaves the data background, read and compare changes nothing, and what the
other algorithms leave is free. -/
def Dev.teFill (d : Dev) (s first count algo : Nat) : Dev :=
  if algo = 1 then d
  else
    let pattern := (List.replicate 32 (leBytes 8 (d.get F.HLT_TE_PATTERN))).flatten
    ((List.range (min count (100663296 - first))).foldl (fun (d : Dev) i =>
      let (bytes, d) := if algo = 0 then (pattern, d) else d.freeBytes 256
      { d with mem := (List.range 256).foldl (fun m b => d.cellMem m s (first + i) b (nth 0 bytes b)) d.mem }) d).put F.MEM_CLEAR_CLEARED 0

/-- TARGET 0x4 (R415): only while the wall of the stack is OFF. -/
def Dev.teStackUnits (d : Dev) (factory : Bool) (cmd : Nat) : Dev :=
  if d.teOpen factory ∧ d.wallState (bitsAt cmd 8 7 / 12) ≠ wallOff then d
  else d.teStart factory cmd 4 fun d =>
    if bitsAt cmd 8 7 < 24 then d.teFill (bitsAt cmd 8 7) (d.get F.HLT_TE_START) (bitsAt cmd 32 32) (bitsAt cmd 24 4) else d

/-- TE_STACK_UNITS (R415). -/
def execTeStackUnits (factory : Bool) (cmd : BitVec 64) (s : State) : Host.Outcome State Fault Refusal :=
  s.upd fun _ d => d.teStackUnits factory cmd.toNat

/-- TARGET 0x5 (R415, R163): a level-0 command of the logical core that the unit serves, at the scratchpad offset in HLT_TE_START. -/
def Dev.teLevel0 (d : Dev) (factory : Bool) (cmd : Nat) : Dev :=
  d.teStart factory cmd 5 fun d =>
    match d.coreOfPhysical (bitsAt cmd 4 3) (bitsAt cmd 8 7) with
    | none => d
    | some n => if d.coreWorks n && (d.coreRun n).flight.isNone then d.level0 n (d.get F.HLT_TE_START % 2 ^ 32) else d

/-- TE_LEVEL0_COMMAND (R415). -/
def execTeLevel0Command (factory : Bool) (cmd : BitVec 64) (s : State) : Host.Outcome State Fault Refusal :=
  s.upd fun _ d => d.teLevel0 factory cmd.toNat

/-- A write of HLT_TE_CMD by its TARGET; a reserved one starts nothing (R415). -/
def Dev.teCommand (d : Dev) (factory : Bool) (cmd : Nat) : Dev :=
  match bitsAt cmd 0 4 with
  | 1 => d.teMacroBank factory cmd
  | 2 => d.teScratchpadBank factory cmd
  | 3 => d.teDiePoolBank factory cmd
  | 4 => d.teStackUnits factory cmd
  | 5 => d.teLevel0 factory cmd
  | _ => if d.teOpen factory then d else d.put F.HLT_TE_STATUS_REFUSED 1

/-- A failure that a test-engine command met: row, word or unit; bit; expected and observed values. -/
abbrev TeFail := Nat × Nat × BitVec 32 × BitVec 32

/-- The record of a test-engine failure (R415). -/
def Dev.teRecord (d : Dev) (cmd : Nat) (x : TeFail) : Dev :=
  let t := bitsAt cmd 0 4
  let die := bitsAt cmd 4 3
  let unit := bitsAt cmd 8 7
  let elem := bitsAt cmd 16 8
  let (addr, b, e, o) := x
  let log := match d.coreOfPhysical die unit with
    | some n => n
    | none => 0xFFFF
  if t = 1 then d.failRec { unit := 1, cls := clsLasting, source := 0xA, action := 0, die := die, index := unit, sub := elem / 2,
                            addr := elem % 2 * 512 + addr, bitNo := b, logical := log, expected := e.toNat, observed := o.toNat }
  else if t = 2 then d.failRec { unit := 3, cls := clsLasting, source := 0xA, action := 0, die := die, index := unit, sub := elem, addr := addr,
                                 bitNo := b, logical := log, expected := e.toNat, observed := o.toNat }
  else if t = 3 then d.failRec { unit := 4, cls := clsLasting, source := 0xA, action := 0, die := die, index := elem, addr := addr, bitNo := b,
                                 expected := e.toNat, observed := o.toNat }
  else if t = 4 then d.failRec { unit := 6, cls := clsLasting, source := 0xA, action := 0, die := unit / 6, index := unit, sub := addr % 32,
                                 addr := addr, bitNo := b, expected := e.toNat, observed := o.toNat }
  else d.failRec { unit := 8, cls := clsLasting, source := 0xA, action := 0, die := die, index := unit, logical := log, expected := e.toNat,
                   observed := o.toNat }

/-- The borrow of a test-engine command ends its test: the copy back begins (R204, R401). -/
def Dev.teRelease (d : Dev) : Dev :=
  let d := d.hlt.slices.foldl (fun d p => if p.2.te && p.2.phase = 3 then
      (d.setSlice p.1 { p.2 with phase := 4, due := false, restart := [], te := false }).put (F.HLT_CORE_SLICE_PHASE p.1) 4 else d) d
  d.pool.borrows.foldl (fun d p => if p.2.why = 3 && p.2.phase = 1 then
      (d.setBorrow (p.1 / 4) p.2.spare { p.2 with phase := 2, due := false }).showBorrow (p.1 / 4) p.2.spare p.2.bank true true else d) d

/-- Whether a borrow that a test-engine command waits for has not been handed over yet. -/
def Dev.teWaits (d : Dev) : Bool :=
  d.hlt.slices.any (fun p => p.2.te && decide (p.2.phase < 3)) || d.pool.borrows.any fun p => p.2.why = 3 && p.2.phase = 0

/-- TE_COMMAND_END (R415): each failure writes a record; with STOP_ON_FAIL the command ends at its first. -/
def execTeCommandEnd (fails : List TeFail) (s : State) : Host.Outcome State Fault Refusal :=
  s.upd fun _ d => match d.hlt.te with
    | none => d
    | some cmd =>
      if d.teWaits then d else
      let l := if bitsAt cmd 7 1 = 1 then fails.take 1 else fails
      let d := l.foldl (fun (d : Dev) x => d.teRecord cmd x) d
      let d := ({ d with hlt := { d.hlt with te := none } }).teRelease
      let d := d.puts [(F.HLT_TE_STATUS_BUSY, 0), (F.HLT_TE_STATUS_DONE, 1), (F.HLT_TE_STATUS_FAIL, b01 (l ≠ [])),
        (F.HLT_TE_STATUS_FAILS, satField 16 l.length)]
      d.hltEvent F.HLT_EVENT_TE_DONE

end Sys2Proof.Machine
end

