-- ==== Sys2Proof/Machine/Fabric.lean ====
section
/-! DEFINITION. Sys2Proof/Machine/Fabric.lean: fabric time and its servo (R242 to R246), the fabric ports (R238 to R240), the frames they take (R262). -/
namespace Sys2Proof.Machine

open Sys2Proof

/-! ### Time -/

def Dev.time (d : Dev) : Nat := d.get F.FAB_TIME_TIME_NS

/-! STATE codes of the time unit (R244). -/
def timeFree : Nat := 0
def timeLocking : Nat := 1
def timeLocked : Nat := 2
def timeHoldover : Nat := 3
def timeHoldoverPps : Nat := 4
def timeLost : Nat := 5

def Dev.timeState (d : Dev) : Nat := d.get F.FAB_TIME_STATUS_STATE

/-- Enter a time state with an error estimate. -/
def Dev.setTime (d : Dev) (st err : Nat) : Dev :=
  (d.put F.FAB_TIME_STATUS_STATE st).put F.FAB_TIME_STATUS_TIME_ERR_NS (min err 0xFFFF)

/-- Enter HOLDOVER with an error estimate, which grows from there (R244). -/
def Dev.holdFrom (d : Dev) (err : Nat) : Dev := { d with fab := { d.fab with holdErr := err, holdNs := 0 } }.setTime timeHoldover err

/-- Whether holdover has the 1 PPS input to go by: PPS_EN = 1, and edges are present (R244, R245). -/
def Dev.ppsHolds (d : Dev) : Bool := d.bit F.FAB_PTP_CFG_PPS_EN && d.bit F.FAB_TIME_STATUS_PPS_SEEN

/-- HOLDOVER and HOLDOVER_PPS follow PPS_EN and the presence of edges (R244). -/
def Dev.ppsHold (d : Dev) : Dev :=
  if d.timeState = timeHoldover && d.ppsHolds then d.setTime timeHoldoverPps 50
  else if d.timeState = timeHoldoverPps && !d.ppsHolds then d.holdFrom 50
  else d

/-- RECENT of every processor: its watchdog expiries in the last 60 s (R353). -/
def Dev.recentSync (d : Dev) : Dev :=
  d.fw.expiries.foldl (fun d x => if x.1 < 6 then
    d.put (F.FW_PROC_STATUS_RECENT x.1) (min 4 (x.2.filter fun t => decide (d.now < t + 60000000000)).length) else d) d

/-- Let `ns` nanoseconds pass. Slewing corrects fabric time by at most 20 ppm, so it never runs backward (R243); in holdover and when lost
TIME_ERR grows at the fused rate (R244). -/
def Dev.elapse (d : Dev) (ns : Nat) : Dev :=
  let d := d.ppsHold
  let budget := d.fab.slewFrac + 20 * ns
  let k : Int := (budget / 1000000 : Nat)
  let adj := max (-k) (min k d.fab.slew)
  let st := d.timeState
  let holding := st = timeHoldover ∨ st = timeLost
  let hold := if holding then d.fab.holdNs + ns else d.fab.holdNs
  let d := { d with now := d.now + ns, fab := { d.fab with slew := d.fab.slew - adj, slewFrac := budget % 1000000, holdNs := hold } }
  let d := (d.put F.FAB_TIME_TIME_NS (((d.time + ns : Nat) : Int) + adj).toNat).recentSync
  if holding then d.put F.FAB_TIME_STATUS_TIME_ERR_NS (min 0xFFFF (d.fab.holdErr + d.get F.FUSE_TIME_HOLDOVER_NS_S * hold / 1000000000)) else d

/-- Carry fabric time forward to an instant that an event says has come; it never runs backward. -/
def Dev.reach (d : Dev) (t : Nat) : Dev := if d.time < t then (d.elapse (t - d.time)).put F.FAB_TIME_TIME_NS t else d

/-- Signed offset of an instant from the nearest whole second (R245). -/
def ppsOffset (t : Nat) : Int :=
  let r := t % 1000000000
  if r < 500000000 then r else (r : Int) - 1000000000

/-! ### Ports -/

def Dev.portOn (d : Dev) (p : Nat) : Bool := d.get (F.FAB_PORT_STATE_STATE p) = codeON
def Dev.portUp (d : Dev) (p : Nat) : Bool := d.portOn p && d.bit (F.FAB_PORT_LINK_LINK_UP p)

/-- The link of a port comes up or goes down. -/
def Dev.setLink (d : Dev) (p : Nat) (up : Bool) : Dev :=
  let d := d.puts [(F.FAB_PORT_LINK_LINK_UP p, b01 up), (F.FAB_PORT_LINK_FEC_LOCK p, b01 up), (F.FAB_PORT_LINK_LANE_OK p, if up then 0xFF else 0)]
  if up then d
  else { d with fab := { d.fab with announce := terase d.fab.announce p } }.puts [(F.FAB_PORT_PTP_SYNC_OK p, 0), (F.FAB_PORT_PTP_AS_CAPABLE p, 0)]

/-- PORT_LINK_DOWN (R239). -/
def execPortLinkDown (p : Fin 2) (s : State) : Host.Outcome State Fault Refusal := s.upd fun _ d =>
  if d.portUp p.val then (d.setLink p.val false).bump (F.FAB_PORT_CNT_RETRAIN p.val) 1 else d

/-- PORT_LINK_UP (R239). -/
def execPortLinkUp (p : Fin 2) (s : State) : Host.Outcome State Fault Refusal := s.upd fun _ d =>
  if d.portOn p.val && !d.portUp p.val then d.setLink p.val true else d

/-! ### Frames received (R240, R262) -/

/-- A field of the Dyosh header of a frame. -/
def frHdr (fr : EthFrame) (b lo len : Nat) : Nat := fld (leNat (fr.data.take 32)) b lo len

/-- Bytes of a frame from the destination address to the FCS; a tag is 4 of them (R240). -/
def frSize (fr : EthFrame) : Nat := (if fr.tag.isSome then 22 else 18) + fr.data.length

/-- MAC addresses that a port takes Dyosh frames for: its own, and the groups of the active plan (R240). -/
def Dev.portMacs (d : Dev) (p : Nat) : List Nat :=
  d.get (F.FAB_PORT_MAC_MAC p) :: match d.crs.active with
    | some pl => [fld pl 48 0 48, fld pl 54 0 48]
    | none => []

/-- Whether a frame is a Dyosh frame for this port (R240). -/
def isDyosh (z : Fixed) (d : Dev) (p : Nat) (fr : EthFrame) : Bool :=
  let tci := match fr.tag with
    | some t => t.toNat
    | none => 0
  fr.fcsOk && fr.tag.isSome && decide (tci % 4096 = z.get F.FAB_CFG_VID) && decide (fr.etherType.toNat = z.get F.FAB_CFG_ETHERTYPE) &&
    (d.portMacs p).contains fr.dst.toNat

/-- Whether a header is of this version, has no reserved type or bit, and gives the length of its payload (R9, R262). -/
def frHeaderOk (fr : EthFrame) : Bool :=
  frHdr fr 0 0 4 = 1 && decide (frHdr fr 0 4 4 ≤ 3) && frHdr fr 1 3 5 = 0 && frHdr fr 4 10 6 = 0 && frHdr fr 6 11 5 = 0 && frHdr fr 16 12 4 = 0 &&
    frHdr fr 18 10 6 = 0 && frHdr fr 20 14 18 = 0 && frHdr fr 26 0 16 = 0 && decide (frHdr fr 20 0 14 = fr.data.length - 32)

/-- Whether PCRC holds: CRC-32C over header bytes 0 to 27 and the payload (R262). A frame shorter than its header holds none. -/
def frPcrcOk (fr : EthFrame) : Bool := decide (32 ≤ fr.data.length) && crc32c (fr.data.take 28 ++ fr.data.drop 32) = frHdr fr 28 0 32

/-- Count the codewords of forward error correction that a frame came in with (log entry 243: DESIGN CHOICE). -/
def Dev.countFec (d : Dev) (p : Nat) (fr : EthFrame) : Dev :=
  (d.bump (F.FAB_PORT_CNT_FEC_CORR p) fr.fec.1).bump (F.FAB_PORT_CNT_FEC_UNCORR p) fr.fec.2

/-- Discard a frame and count it (R238, R240). -/
def Dev.dropFrame (d : Dev) (p : Nat) (fr : EthFrame) : Dev :=
  let d := d.countFec p fr
  if 9216 < frSize fr then d.bump (F.FAB_PORT_CNT_OVERSIZE p) 1
  else
    let d := if fr.fcsOk then d else d.bump (F.FAB_PORT_CNT_FCS_ERR p) 1
    d.bump (F.FAB_PORT_CNT_DROPPED p) 1

/-- Count frames that a port accepts, given their sizes (R240). -/
def Dev.countRx (d : Dev) (p : Nat) (sizes : List Nat) : Dev :=
  (d.bump (F.FAB_PORT_CNT_RX_FRAMES p) sizes.length).bump (F.FAB_PORT_CNT_RX_BYTES p) sizes.sum

/-- Count frames that a port sends, given their sizes. -/
def Dev.countTx (d : Dev) (p : Nat) (sizes : List Nat) : Dev :=
  (d.bump (F.FAB_PORT_CNT_TX_FRAMES p) sizes.length).bump (F.FAB_PORT_CNT_TX_BYTES p) sizes.sum

/-- Take a Dyosh frame: one whose PCRC fails is counted and goes to `bad` (R262); one whose header is not as R262 lays it out is refused, counted as discarded
(R9; log entry 271: DESIGN CHOICE). -/
def Dev.takeDyosh (d : Dev) (p : Nat) (fr : EthFrame) (bad good : Dev → Dev) : Dev :=
  let d := (d.countFec p fr).countRx p [frSize fr]
  if !(frPcrcOk fr) then bad (d.bump (F.FAB_PORT_CNT_PCRC_ERR p) 1)
  else if !(frHeaderOk fr) then d.bump (F.FAB_PORT_CNT_DROPPED p) 1
  else good d

/-- Take a frame of one type in: a frame that is no Dyosh frame is discarded (R240). -/
def Dev.takeFrame (z : Fixed) (d : Dev) (p type : Nat) (fr : EthFrame) (bad good : Dev → Dev) : Dev :=
  if !d.portUp p then d
  else if decide (9216 < frSize fr) || !isDyosh z d p fr then d.dropFrame p fr
  else if frHdr fr 0 4 4 ≠ type then d
  else d.takeDyosh p fr bad good

/-- ETHERNET_FRAME_DROPPED: a frame that the port does not take, among them Dyosh frames of a reserved type; 802.1AS frames go to the time unit (R240). -/
def execEthernetFrameDropped (p : Fin 2) (fr : EthFrame) (s : State) : Host.Outcome State Fault Refusal := s.upd fun z d =>
  if !d.portUp p.val then d
  else if frSize fr ≤ 9216 ∧ isDyosh z d p.val fr then (if frHdr fr 0 4 4 ≤ 3 then d else d.takeDyosh p.val fr id id)
  else if frSize fr ≤ 9216 ∧ fr.etherType = 0x88F7 ∧ fr.fcsOk then d
  else d.dropFrame p.val fr

/-- Send a Dyosh frame on a port (R262): the source address is the port's MAC, the tag holds the PCP and VID of FAB_CFG with DEI 0, the EtherType is that of
FAB_CFG; the header is given without PCRC. -/
def Dev.sendFrame (z : Fixed) (d : Dev) (p dst : Nat) (header : Nat) (payload : List Byte) : Dev :=
  let h := leBytes 28 header
  let bytes := h ++ leBytes 4 (crc32c (h ++ payload)) ++ payload
  let tci := z.get F.FAB_CFG_PCP * 2 ^ 13 + z.get F.FAB_CFG_VID
  (d.emit (.frame p dst (d.get (F.FAB_PORT_MAC_MAC p)) tci (z.get F.FAB_CFG_ETHERTYPE) bytes)).countTx p [22 + bytes.length]

/-- The 28 bytes of a Dyosh header before PCRC (R262). -/
def dyoshHeader (type : Nat) (repair last : Bool) (port job src dst course slot seg len plan : Nat) : Nat :=
  1 + type % 16 * 2 ^ 4 + (b01 repair + 2 * b01 last + 4 * (port % 2)) * 2 ^ 8 + job % 2 ^ 16 * 2 ^ 16 + src % 2 ^ 10 * 2 ^ 32 +
    dst % 2 ^ 11 * 2 ^ 48 + course % 2 ^ 64 * 2 ^ 64 + slot % 2 ^ 12 * 2 ^ 128 + seg % 2 ^ 10 * 2 ^ 144 + len % 2 ^ 14 * 2 ^ 160 + plan % 2 ^ 16 * 2 ^ 192

/-! ### The time unit -/

/-- Make a port the slave and the other passive (R242). -/
def Dev.makeSlave (d : Dev) (p : Nat) : Dev :=
  d.puts [(F.FAB_TIME_STATUS_SLAVE_PORT, p), (F.FAB_PORT_PTP_ROLE p, 1), (F.FAB_PORT_PTP_ROLE (1 - p), 2)]

/-- A Sync disciplines fabric time (R243, R244): the first lock steps it, any other correction is slewed. -/
def Dev.sync (d : Dev) (p gm err : Nat) (converged : Bool) : Dev :=
  let d := d.put (F.FAB_PORT_PTP_SYNC_OK p) 1
  let st := d.timeState
  let slave : Bool := d.get F.FAB_TIME_STATUS_SLAVE_PORT = p
  let slewed := fun (d : Dev) => { d with fab := { d.fab with slew := (gm : Int) - d.time } }
  if st = timeFree then d.put F.FAB_TIME_STATUS_STATE timeLocking
  else if st = timeLocking then
    if slave && converged then
      let d := if d.fab.stepped then slewed d else { d with fab := { d.fab with stepped := true, slew := 0 } }.put F.FAB_TIME_TIME_NS gm
      d.setTime timeLocked err
    else d
  else if st = timeLocked then (if slave then (slewed d).setTime timeLocked err else d)
  else
    let d := if slave then d else (d.makeSlave p).bump F.FAB_CNT_SLAVE_MOVES 1
    (slewed d).setTime timeLocked err

/-- The frames of an exchange of IEEE 802.1AS count at their port (R240). -/
def Dev.countFrames (d : Dev) (p : Nat) (fr : AsFrames) : Dev := (d.countRx p (fr.got.map (·.val))).countTx p (fr.sent.map (·.val))

/-- SYNC_RECEIVED: `ns` after the last event of the time unit, a Sync of the domain gives grandmaster time `gm`; the servo estimates its error and says whether it
has converged (R242, R244). It is handled while Helam processor 3 is ON (R352). `fr`: the frames that carried it (R240). -/
def execSyncReceived (p : Fin 2) (ns : Nat) (fr : AsFrames) (gm : BitVec 64) (err : BitVec 16) (converged : Bool) (s : State) :
    Host.Outcome State Fault Refusal := s.upd fun z d =>
  let d := d.elapse ns
  let d := if d.portUp p.val then d.countFrames p.val fr else d
  if d.portUp p.val && decide (fr.dom.toNat = z.get F.FAB_PTP_CFG_DOMAIN) && decide (d.get (F.FW_PROC_STATE_STATE 3) = codeON) then d.sync p.val gm.toNat err.toNat converged else d

/-- SYNC_TIMEOUT: holdover begins (R244). -/
def execSyncTimeout (ns : Nat) (s : State) : Host.Outcome State Fault Refusal := s.upd fun _ d =>
  let d := (d.elapse ns).puts [(F.FAB_PORT_PTP_SYNC_OK 0, 0), (F.FAB_PORT_PTP_SYNC_OK 1, 0)]
  if d.timeState ≠ timeLocked then d
  else
    let err := d.get F.FAB_TIME_STATUS_TIME_ERR_NS
    ({ d with fab := { d.fab with slew := 0 } }.holdFrom err).ppsHold

/-- SLAVE_PORT_MOVE (R243). -/
def execSlavePortMove (s : State) : Host.Outcome State Fault Refusal := s.upd fun _ d =>
  let p := d.get F.FAB_TIME_STATUS_SLAVE_PORT
  if d.portUp (1 - p) && d.bit (F.FAB_PORT_PTP_SYNC_OK (1 - p)) then
    ((d.put (F.FAB_PORT_PTP_SYNC_OK p) 0).makeSlave (1 - p)).bump F.FAB_CNT_SLAVE_MOVES 1
  else d

/-- TIME_LOST: TIME_ERR has passed LIMIT_NS (R244); 0 acts as 1. -/
def execTimeLost (ns : Nat) (s : State) : Host.Outcome State Fault Refusal := s.upd fun _ d =>
  let d := d.elapse ns
  let err := d.get F.FAB_TIME_STATUS_TIME_ERR_NS
  if (d.timeState = timeHoldover ∨ d.timeState = timeHoldoverPps) ∧ max 1 (d.get F.FAB_TIME_LIMIT_LIMIT_NS) < err then
    { d with fab := { d.fab with holdErr := err, holdNs := 0 } }.put F.FAB_TIME_STATUS_STATE timeLost
  else d

/-- PPS_EDGE: an edge is measured, and in holdover sets the phase (R244, R245). -/
def execPpsEdge (ns : Nat) (s : State) : Host.Outcome State Fault Refusal := s.upd fun _ d =>
  let d := d.elapse ns
  let off := ppsOffset d.time
  let d := d.puts [(F.FAB_PPS_OFFSET_OFFSET_NS, ofSigned 32 off), (F.FAB_TIME_STATUS_PPS_SEEN, 1)]
  let d := if 100 < off.natAbs then d.bump F.FAB_CNT_PPS_MISMATCH 1 else d
  if (d.timeState = timeHoldover ∨ d.timeState = timeHoldoverPps) ∧ d.bit F.FAB_PTP_CFG_PPS_EN then
    { d with fab := { d.fab with slew := -off } }.setTime timeHoldoverPps 50
  else d

/-- PPS_ABSENT: no edge for 2 s (R245); holdover goes on without it. -/
def execPpsAbsent (ns : Nat) (s : State) : Host.Outcome State Fault Refusal := s.upd fun _ d =>
  ((d.elapse ns).put F.FAB_TIME_STATUS_PPS_SEEN 0).ppsHold

/-- The port that the best master clock algorithm selects: the better vector is the smaller one, and port 0 on a tie (R242). -/
def bestPort (a : Table Nat) : Option Nat :=
  match tfind a 0, tfind a 1 with
  | some x, some y => some (if x ≤ y then 0 else 1)
  | some _, none => some 0
  | none, some _ => some 1
  | none, none => none

/-- GPTP_MESSAGE: an Announce takes part in the selection of the slave port, a peer-delay exchange measures the link (R242). `fr`: the frames
that carried it (R240). -/
def execGptpMessage (p : Fin 2) (fr : AsFrames) (m : GptpMessage) (s : State) : Host.Outcome State Fault Refusal :=
  s.upd fun z d =>
  if !d.portUp p.val then d else
  let d := d.countFrames p.val fr
  if fr.dom.toNat ≠ z.get F.FAB_PTP_CFG_DOMAIN then d
  else match m with
  | .announce v =>
    let d := { d with fab := { d.fab with announce := tset d.fab.announce p.val v.toNat } }
    match bestPort d.fab.announce with
    | some q => d.makeSlave q
    | none => d
  | .peerDelay ns capable => d.puts [(F.FAB_PORT_PTP_LINK_DELAY_NS p.val, ns.toNat), (F.FAB_PORT_PTP_AS_CAPABLE p.val, b01 capable)]

/-- IDLE_LEN_WRITE: a value outside 4 to 256 is written as the nearer end (R249). -/
def Dev.idleLenWrite (d : Dev) (v : Nat) : Dev := d.put F.CRS_IDLE_LEN_IDLE_LEN (max 4 (min 256 (v % 512)))

/-- Whether a requester reaches the registers beyond a virtual function's window (R295). -/
def fullAccess : Requester → Bool
  | .fn f => f.val = 0
  | .proc _ => true
  | .testEngine => false

/-- IDLE_LEN_WRITE (R249). -/
def execIdleLenWrite (q : Requester) (v : BitVec 32) (s : State) : Host.Outcome State Fault Refusal := s.upd fun _ d =>
  if d.barOpen q && fullAccess q then d.idleLenWrite v.toNat else d

end Sys2Proof.Machine
end

