-- ==== Sys2Proof/Machine/Move.lean ====
section
/-! DEFINITION. Sys2Proof/Machine/Move.lean: the descriptors that move, fill, convert and measure data: COPY, FILL, CONVERT, STATS, EVENT (R312 to R318). -/
namespace Sys2Proof.Machine

open Sys2Proof

/-! ### Address fields (R312) -/

/-- Whether an address field of COPY, FILL or EVENT names host memory. -/
def isHost (a : Nat) : Bool := bitsAt a 63 1 = 1
def hostAddr (a : Nat) : Nat := a % 2 ^ 63

/-- Whether such a field is free of reserved bits: bits [62:48] of a device address are zero. -/
def addrOk (a : Nat) : Bool := isHost a || bitsAt a 48 15 = 0

/-- End an in-flight descriptor with a status. -/
def Dev.done (d : Dev) (fl st : Nat) : Dev := d.modFlight fl fun f => f.finish st

/-- End it with the status of a refused or failed access, which is counted where a bank or stack refused it. -/
def Dev.refused (d : Dev) (fl a st : Nat) : Dev := (d.countRefusal a st).done fl st

/-- The function that owns a context: 0 where none does. -/
def Fixed.fnOf (z : Fixed) (c : Nat) : Nat := (z.owner c).getD 0

/-- Write consecutive bytes at a field's address, in host or device memory. -/
def Dev.put64 (z : Fixed) (d : Dev) (fl c a : Nat) (bytes : List Byte) : Dev :=
  if isHost a then d.emit (.hostWrite (z.fnOf c) (hostAddr a) bytes) else d.store (some fl) a bytes

/-! ### COPY (R313) -/

def copyBodyOk (b : Nat) : Bool :=
  let s := fld b 16 0 64
  let t := fld b 24 0 64
  addrOk s && addrOk t && !(isHost s && isHost t) && decide (1 ≤ fld b 32 0 64) && decide (fld b 32 0 64 ≤ 2 ^ 40) && fld b 40 0 192 = 0

/-- Where a copy stops, if a byte of it cannot be read or written: the bytes before it, its address and the status. Bytes move in increasing address order,
each read before it is written. -/
def copyRefused (z : Fixed) (d : Dev) (part s t n : Nat) : Option (Nat × Nat × Nat) :=
  let r := (if isHost s then none else readStatus z d (some part) s n).map fun x => (x.1 - s, x)
  let w := (if isHost t then none else rangeStatus z d (some part) t n).map fun x => (x.1 - t, x)
  match r, w with
  | some x, some y => if x.1 ≤ y.1 then some x else some y
  | some x, none => some x
  | none, y => y

/-- Whether source and destination overlap in device memory: the result depends on timing. -/
def copyOverlaps (s t n : Nat) : Bool := !isHost s && !isHost t && decide (s < t + n) && decide (t < s + n)

/-- The first `k` bytes of a copy of `n` whose source lies in the device; of an overlapping one they are free (R313). -/
def Dev.copyBytes (d : Dev) (s t n k : Nat) : List Byte × Dev := if copyOverlaps s t n then d.freeBytes k else (d.peeks s k, d.touch s k)

/-- What a COPY does once its data is there, `data` where it comes from the host: it writes in increasing address order, up to a byte that it cannot read or
write, and RESULT is the number of bytes written (R313, R321). -/
def Dev.copyEnd (z : Fixed) (d : Dev) (fl : Nat) (f : Flight) (data : Option (List Byte)) : Dev :=
  let s := fld f.desc 16 0 64
  let t := fld f.desc 24 0 64
  let n := fld f.desc 32 0 64
  let write := fun (d : Dev) (k : Nat) =>
    let (bytes, d) := match data with
      | some b => (b.take k, d)
      | none => d.copyBytes s t n k
    (d.put64 z fl f.ctx t bytes).modFlight fl fun f => { f with host := 0, result := k }
  match copyRefused z d f.partition s t n with
  | some (k, a, st) => (write d k).refused fl a st
  | none => (write d n).done fl stOK

/-- Host data arrives for a COPY that waits for it; a retry that succeeded was a transient error (R328). -/
def Dev.copyArrive (z : Fixed) (d : Dev) (fl : Nat) (bytes : List Byte) : Dev :=
  match d.flight fl with
  | none => d
  | some f =>
    let n := fld f.desc 32 0 64
    if f.host = 0 ∨ f.ready ∨ bytes.length < n then d
    else (if f.host = 2 then d.bump F.HOST_CNT_DMA_TRANSIENT 1 else d).copyEnd z fl f (some bytes)

/-- What a COPY does at dispatch; with a source in host memory it then waits for the data. -/
def dispatchCopy (z : Fixed) (d : Dev) (fl : Nat) (f : Flight) : Dev :=
  let s := fld f.desc 16 0 64
  if !copyBodyOk f.desc then d.done fl stInvalidField
  else if isHost s then (d.emit (.hostRead (z.fnOf f.ctx) (hostAddr s) (fld f.desc 32 0 64))).modFlight fl fun f => { f with host := 1 }
  else d.copyEnd z fl f none

/-! ### FILL (R314) -/

/-- Reserved fields of a FILL body (R9, R312). -/
def fillBodyOk (b : Nat) : Bool := addrOk (fld b 16 0 64) && fld b 40 0 192 = 0

/-- What a FILL does: it writes in increasing address order, up to a byte that it cannot write, and RESULT is the number of bytes written (R321). -/
def dispatchFill (z : Fixed) (d : Dev) (fl : Nat) (f : Flight) : Dev :=
  let t := fld f.desc 16 0 64
  let n := fld f.desc 24 0 64
  if !fillBodyOk f.desc then d.done fl stInvalidField
  else
    let write := fun (k : Nat) => (d.put64 z fl f.ctx t ((List.range k).map fun i => BitVec.ofNat 8 (fld f.desc (32 + i % 8) 0 8))).modFlight fl
      fun f => { f with result := k }
    match if isHost t then none else rangeStatus z d (some f.partition) t n with
    | some (a, st) => (write (a - t)).refused fl a st
    | none => (write n).done fl stOK

/-! ### CONVERT (R315) -/

def cvLE (b : Nat) : Nat := fld b 32 0 32
def cvLines (b : Nat) : Nat := fld b 36 0 32
def cvSrc (b : Nat) : Nat := convFmt (fld b 40 0 16)
def cvConv (b : Nat) : Nat := fld b 42 0 16
def cvScale (b : Nat) : ScaleRef := scaleRefAt b 48

/-- Bytes from one line to the next. -/
def lineStride (elements width : Nat) : Nat := ceilDiv (elements * width) 256 * 32

/-- The scale reference of a CONVERT (R118, R122, R315); a target and source that need none leave it unused. -/
def cvScaleOk (b : Nat) : Bool :=
  let r := cvScale b
  let le := cvLE b
  let plane := fun (size : Nat) => decide (r.mode = 4) && decide (ceilDiv le size ≤ r.stride)
  match fmtBlock (cvSrc b), fmtBlock (convFmt (cvConv b)) with
  | some _, some _ => false
  | some (_, _, size), none => (fmtInt (convFmt (cvConv b))).isNone && plane size
  | none, some (_, _, size) => plane size
  | none, none =>
    (fmtInt (convFmt (cvConv b))).isNone ||
      (decide (r.mode ≤ 3) && (decide (r.source ≠ 2) || decide (r.mode = 3)) &&
        (decide (r.mode ≠ 3) || decide (4 * ceilDiv le r.groupSize ≤ r.stride)))

def convertBodyOk (b : Nat) : Bool :=
  fld b 16 0 64 % 32 = 0 && fld b 24 0 64 % 32 = 0 && decide (1 ≤ cvLE b) && decide (1 ≤ cvLines b) && fld b 44 0 32 = 0 &&
    convOk (fld b 40 0 16) && convOk (cvConv b) && isStoreTarget (convFmt (cvConv b)) && (cvScale b).ok && cvScaleOk b

/-- A source element as a binary64 code; a NaN keeps its payload and whether it signals (R92, R96). -/
def widenElem (c x : Nat) : Nat :=
  match fmtInt c with
  | some _ => toB64 (FVal.ofInt (intVal c x))
  | none =>
    if c = 0x02 then toB64 (FVal.ofInt (intVal c x))
    else match floatVal c x with
    | .nan s p => b01 s * 2 ^ 63 + 0x7FF * 2 ^ 52 + p
    | v => toB64 v

/-- The elements of line `i` of the source. -/
def Dev.cvLine (d : Dev) (b i : Nat) : List DrainElem :=
  let c := cvSrc b
  let w := fmtWidth c
  let base := fld b 16 0 64 + i * lineStride (cvLE b) w
  let r := cvScale b
  (List.range (cvLE b)).map fun e =>
    let raw := d.element w base e
    match fmtBlock c with
    | some (mb, F, size) => ⟨0, e, toB64 (blockElem mb F (d.peekNat (r.addr + i * r.stride + e / size) 1) raw)⟩
    | none => ⟨0, e, widenElem c raw⟩

/-- Memory that a CONVERT reads for line `i`. -/
def cvReads (b i : Nat) : List (Nat × Nat) :=
  let c := cvSrc b
  let w := fmtWidth c
  let r := cvScale b
  let le := cvLE b
  (fld b 16 0 64 + i * lineStride le w, ceilDiv (le * w) 8) ::
    match fmtBlock c, fmtInt (convFmt (cvConv b)) with
    | some (_, _, size), _ => [(r.addr + i * r.stride, ceilDiv le size)]
    | none, some _ =>
      if r.source = 2 then [] else match r.mode with
      | 1 => [(r.addr, 4)]
      | 2 => [(r.addr, 4 * le)]
      | 3 => [(r.addr + i * r.stride, 4 * ceilDiv le r.groupSize)]
      | _ => []
    | none, none => []

/-- What a CONVERT makes of line `i` (R102, R122): its codes and what else it writes and counts. -/
def Dev.cvOut (d : Dev) (b i : Nat) : OutCodes :=
  let c := convFmt (cvConv b)
  let xs := d.cvLine b i
  match fmtBlock c with
  | some (mb, _, size) => outBlock 0 i 0 (cvConv b) mb size (cvScale b) xs
  | none => match fmtInt c with
    | some _ => outInt d 0 i 0 c (cvScale b) xs
    | none => outFloat (cvConv b) xs

/-- The writes of line `i`. -/
def cvWrites (b i : Nat) (x : OutCodes) : List TileWrite :=
  let w := fmtWidth (convFmt (cvConv b))
  x.writes ++ [⟨fld b 24 0 64 + i * lineStride (cvLE b) w, 0, w, x.codes.map (·.2)⟩]

/-- A CONVERT between two lines: the state, what it has counted, its null groups, and the byte at which it stopped with the status. -/
structure ConvertRun where
  d : Dev
  counts : Counts := {}
  zeros : List Nat := []
  stop : Option (Nat × Nat) := none

/-- The part of a write that lies before an address: its whole elements. -/
def TileWrite.before (w : TileWrite) (a : Nat) : TileWrite := { w with codes := w.codes.take ((a - w.addr) * 8 / w.width) }

/-- One write of a CONVERT: the elements before a byte that it cannot write stay written (R315, R329). -/
def ConvertRun.write (z : Fixed) (fl : Nat) (f : Flight) (r : ConvertRun) (w : TileWrite) : ConvertRun :=
  if r.stop.isSome then r else
  match rangeStatus z r.d (some f.partition) w.addr w.bytes with
  | some x => { r with d := r.d.tileWrite fl (w.before x.1), stop := some x }
  | none => { r with d := r.d.tileWrite fl w }

/-- Line `i` of a CONVERT: it is read, converted and written before the next (R315). -/
def ConvertRun.line (z : Fixed) (fl : Nat) (f : Flight) (r : ConvertRun) (i : Nat) : ConvertRun :=
  if r.stop.isSome then r else
  match firstUnread z r.d (some f.partition) (cvReads f.desc i) with
  | some x => { r with stop := some x }
  | none =>
    let d := (cvReads f.desc i).foldl (fun d x => d.touch x.1 x.2) r.d
    let out := d.cvOut f.desc i
    let flags := signallingFlag ((d.cvLine f.desc i).map (·.x))
    let r := { r with d := d, counts := (r.counts.add out.counts).add { flags := flags }, zeros := r.zeros ++ out.zeros }
    (cvWrites f.desc i out).foldl (fun r w => r.write z fl f w) r

/-- What a CONVERT does: one line after another, up to a byte that it cannot read or write. -/
def dispatchConvert (z : Fixed) (d : Dev) (fl : Nat) (f : Flight) : Dev :=
  if !convertBodyOk f.desc then d.done fl stInvalidField
  else
    let r : ConvertRun := (List.range (cvLines f.desc)).foldl (fun r i => r.line z fl f i) { d := d }
    let k := r.counts.add { nulls := (distinctKeys r.zeros).length }
    let d := r.d.modFlight fl fun f => { f with counts := f.counts.add k }
    match r.stop with
    | some (a, st) => d.refused fl a st
    | none => d.done fl stOK

/-! ### STATS (R316) -/

def ssLE (b : Nat) : Nat := fld b 36 0 32
def ssStride (b : Nat) : Nat := fld b 40 0 64
def ssFmt (b : Nat) : Nat := convFmt (fld b 32 0 16)
def ssRef (b : Nat) : ScaleRef := scaleRefAt b 48

/-- Reserved fields and encodings of a STATS body (R9, R118, R126, R316). A block format has no exponent plane here. -/
def statsBodyOk (b : Nat) : Bool :=
  let r := ssRef b
  fld b 34 0 16 = 0 && convOk (fld b 32 0 16) && (fmtBlock (ssFmt b)).isNone && decide (1 ≤ ssLE b) && fld b 24 0 64 % ssLE b = 0 && r.ok &&
    decide (1 ≤ r.mode) && decide (r.mode ≤ 3) && decide (r.source = 0) &&
    (decide (r.mode ≠ 3) || decide (4 * ceilDiv (ssLE b) r.groupSize ≤ r.stride))

def ssLines (b : Nat) : Nat := fld b 24 0 64 / ssLE b

/-- The elements of line `i` as binary64 codes. -/
def Dev.ssLine (d : Dev) (b i : Nat) : List Nat :=
  (List.range (ssLE b)).map fun e => widenElem (ssFmt b) (d.element (fmtWidth (ssFmt b)) (fld b 16 0 64 + i * ssStride b) e)

/-- The entries of a STATS, with their addresses (R119, R126): one per tensor, per column of the lines, or per group of each line. -/
def ssEntries (b : Nat) (lines : List (List Nat)) : List TileWrite :=
  let r := ssRef b
  match r.mode with
  | 1 => [⟨r.addr, 0, 32, [statsEntry lines.flatten]⟩]
  | 2 => [⟨r.addr, 0, 32, (List.range (ssLE b)).map fun c => statsEntry (lines.map fun l => nth 0 l c)⟩]
  | _ => (List.range lines.length).map fun i =>
      ⟨r.addr + i * r.stride, 0, 32, (chunksOf r.groupSize (ssLE b) (nth [] lines i)).map statsEntry⟩

def dispatchStats (z : Fixed) (d : Dev) (fl : Nat) (f : Flight) : Dev :=
  let b := f.desc
  if !statsBodyOk b then d.done fl stInvalidField
  else
    let bytes := ceilDiv (ssLE b * fmtWidth (ssFmt b)) 8
    let reads := (List.range (ssLines b)).map fun i => (fld b 16 0 64 + i * ssStride b, bytes)
    match firstUnread z d (some f.partition) reads with
    | some (a, st) => d.refused fl a st
    | none =>
      let d := reads.foldl (fun d r => d.touch r.1 r.2) d
      let lines := (List.range (ssLines b)).map (d.ssLine b)
      let ws := ssEntries b lines
      match firstRefused z d (some f.partition) (ws.map fun w => (w.addr, w.bytes)) with
      | some (a, st) => d.refused fl a st
      | none =>
        let nans := (lines.flatten.filter fun x => (b64 x).isNaN).length
        (ws.foldl (fun d w => d.tileWrite fl w) d).modFlight fl fun f =>
          { f with counts := f.counts.add { nan := nans, flags := signallingFlag lines.flatten } }.finish stOK

/-! ### EVENT (R318) -/

/-- The vectors of a function (R292). -/
def vectorsOf (f : Nat) : Nat := if f = 0 then 2048 else 64

/-- Whether a vector field of a context's function names a vector that a context may raise (R296). -/
def vectorOk (f v : Nat) : Bool := decide (v < vectorsOf f) && (decide (f ≠ 0) || decide (v ≠ 0))

def eventBodyOk (fn b : Nat) : Bool :=
  addrOk (fld b 16 0 64) && decide (fld b 32 0 2 ≤ 2) && fld b 32 2 14 = 0 && fld b 34 11 4 = 0 && fld b 36 0 224 = 0 &&
    (fld b 34 15 1 = 1 || vectorOk fn (fld b 34 0 11))

/-- What an EVENT does: its write or atomic, then its vector, then it completes. -/
def dispatchEvent (z : Fixed) (d : Dev) (fl : Nat) (f : Flight) : Dev :=
  let b := f.desc
  let a := fld b 16 0 64
  let fn := z.fnOf f.ctx
  let finish := fun (d : Dev) => (if fld b 34 15 1 = 1 then d else d.sendMsix fn (fld b 34 0 11)).done fl stOK
  if !eventBodyOk fn b then d.done fl stInvalidField
  else match fld b 32 0 2 with
  | 0 =>
    match if isHost a then none else rangeStatus z d (some f.partition) a 8 with
    | some (x, st) => d.refused fl x st
    | none => finish (d.put64 z fl f.ctx a (leBytes 8 (fld b 24 0 64)))
  | 1 =>
    if isHost a then d.done fl stAddressFault
    else
      let (r, d') := d.bankAtomic z true (if a < scratchBase then 66 else 0) (some f.partition) false (some fl) a 8 (fld b 24 0 64) .clean
      if r.1 = stOK then finish d' else d'.done fl r.1
  | _ => finish d

end Sys2Proof.Machine
end

