-- ==== Sys2Proof/Machine/Plan.lean ====
section
/-! DEFINITION. Sys2Proof/Machine/Plan.lean: course plans and their checks (R252 to R261), and the job descriptors (R286 to R290). -/
namespace Sys2Proof.Machine

open Sys2Proof

/-! ### Context-table entries (R302): the 64 bytes as one number -/

def Dev.entry (d : Dev) (c : Nat) : Nat := (List.range 8).foldl (fun a i => a + d.get (F.CTX_ENTRY c i) * 2 ^ (64 * i)) 0

def enRing (e : Nat) : Nat := fld e 0 0 64
def enCpl (e : Nat) : Nat := fld e 8 0 64
def enShadow (e : Nat) : Nat := fld e 16 0 64
def enLog2 (e : Nat) : Nat := fld e 24 0 5
def enPriority (e : Nat) : Nat := fld e 25 0 2
def enPin (e : Nat) : Bool := fld e 25 2 1 = 1
def enAbort (e : Nat) : Bool := fld e 25 3 1 = 1
def enFunction (e : Nat) : Nat := fld e 26 0 6
def enPart (e : Nat) : Nat := fld e 27 0 2
def enVector (e : Nat) : Nat := fld e 28 0 11
def enNoVector (e : Nat) : Bool := fld e 29 7 1 = 1
def enMod (e : Nat) : Nat := fld e 30 0 16
/-- Entries of the rings: S (R304). -/
def enSize (e : Nat) : Nat := 2 ^ enLog2 e

/-! ### The plan header (R254) -/

def plId (p : Nat) : Nat := fld p 2 0 16
def plJob (p : Nat) : Nat := fld p 4 0 16
def plModule (p : Nat) : Nat := fld p 6 0 10
def plModules (p : Nat) : Nat := fld p 8 0 11
def plKeystone (p : Nat) : Nat := fld p 10 0 10
def plSuccessor (p : Nat) : Nat := fld p 12 0 10
/-- Positions of a plan cycle: CYCLE + 1. -/
def plCycle (p : Nat) : Nat := fld p 14 0 12 + 1
def plBase (p : Nat) : Nat := fld p 16 0 9
def plGuard (p : Nat) : Nat := fld p 18 0 6
def plAckNs (p : Nat) : Nat := fld p 20 0 16
def plLead (p : Nat) : Nat := fld p 22 0 16
def plHold (p : Nat) : Nat := fld p 24 0 16
def plMiss (p : Nat) : Nat := fld p 26 0 8
def plTakeover (p : Nat) : Nat := fld p 27 0 8
def plStatusOff (p : Nat) : Nat := fld p 28 0 16
def plKeystoneOff (p : Nat) : Nat := fld p 30 0 16
def plRepairOff (p k : Nat) : Nat := fld p (32 + 4 * k) 0 16
def plRepairNs (p k : Nat) : Nat := fld p (34 + 4 * k) 0 16
def plOps (p : Nat) : Nat := fld p 40 0 14
def plSends (p : Nat) : Nat := fld p 42 0 13
def plRecvs (p : Nat) : Nat := fld p 44 0 13
def plJobGroup (p : Nat) : Nat := fld p 48 0 48
def plControl (p : Nat) : Nat := fld p 54 0 48
def plModtab (p : Nat) : Nat := fld p 64 0 32
def plCoursetab (p : Nat) : Nat := fld p 68 0 32
def plOpsOff (p : Nat) : Nat := fld p 72 0 32
def plSendOff (p : Nat) : Nat := fld p 76 0 32
def plRecvOff (p : Nat) : Nat := fld p 80 0 32
def plBytes (p : Nat) : Nat := fld p 84 0 32

/-! ### Its tables (R255 to R259) -/

/-- The MAC address of a module's port. -/
def plMac (p i port : Nat) : Nat := fld p (plModtab p + 16 * i + 6 * port) 0 48

/-- Entry `i` of a table of entries of `n` bytes. -/
def entryAt (p off n i : Nat) : Nat := p / 2 ^ (8 * (off + n * i)) % 2 ^ (8 * n)

def coursePos (p q : Nat) : Nat := entryAt p (plCoursetab p) 16 q
def opAt (p i : Nat) : Nat := entryAt p (plOpsOff p) 16 i
def sendAt (p i : Nat) : Nat := entryAt p (plSendOff p) 32 i
def recvAt (p i : Nat) : Nat := entryAt p (plRecvOff p) 32 i

/-- First entry and count of the operations, sends and receives of a position. -/
def posOps (c : Nat) : Nat × Nat := (fld c 0 0 14, fld c 2 0 14)
def posSends (c : Nat) : Nat × Nat := (fld c 4 0 13, fld c 6 0 13)
def posRecvs (c : Nat) : Nat × Nat := (fld c 8 0 13, fld c 10 0 13)
def posCheckpoint (c : Nat) : Bool := fld c 12 0 1 = 1

/-- The entries of a range. -/
def rangeOf (r : Nat × Nat) : List Nat := (List.range r.2).map (r.1 + ·)

def oeDesc (e : Nat) : Nat := fld e 0 0 64
def oeTag (e : Nat) : Nat := fld e 8 0 16
def oeSpan (e : Nat) : Nat := fld e 10 0 8
def oeReport (e : Nat) : Bool := fld e 11 0 1 = 1
def oeWait (e : Nat) : Nat := fld e 12 0 16
/-- Fields that send and receive entries share: address, length, slot, the other module, port, offset; DEP_TAG of a send. -/
def seAddr (e : Nat) : Nat := fld e 0 0 64
def seLength (e : Nat) : Nat := fld e 8 0 23
def seSlot (e : Nat) : Nat := fld e 12 0 12
def sePeer (e : Nat) : Nat := fld e 14 0 10
def sePort (e : Nat) : Nat := fld e 15 7 1
def seOffset (e : Nat) : Nat := fld e 16 0 16
def seDep (e : Nat) : Nat := fld e 18 0 16

/-- D(n): how long a slot of n bytes occupies its port, in ns (R259). -/
def slotNs (n : Nat) : Nat := ceilDiv (n + 74 * ceilDiv n 8192) 200

/-- An offset of a plan scaled to a length (R252); both lengths in units of 256 ns. -/
def scaled (o len base : Nat) : Nat := if base = 0 then o else o * len / base

/-! ### Validation (R260) -/

def headerOk (p : Nat) : Bool :=
  fld p 0 0 16 = 1 && decide (plId p ≠ 0) && decide (plModule p < plModules p) && decide (plModules p ≤ 1024) && decide (plKeystone p < plModules p) &&
    decide (plSuccessor p < plModules p) && (decide (plModules p ≤ 1) || decide (plSuccessor p ≠ plKeystone p)) &&
    decide (4 ≤ plBase p) && decide (plBase p ≤ 256) && decide (1 ≤ plGuard p) && decide (plGuard p ≤ 32) &&
    decide (256 ≤ plAckNs p) && decide (plAckNs p ≤ 16384) && decide (64 ≤ plLead p) && decide (64 ≤ plHold p) && decide (2 ≤ plMiss p) &&
    decide (2 ≤ plTakeover p) && decide (plOps p ≤ 8192) && decide (plSends p ≤ 4096) && decide (plRecvs p ≤ 4096) &&
    fld p 6 10 6 = 0 && fld p 8 11 5 = 0 && fld p 10 10 6 = 0 && fld p 12 10 6 = 0 && fld p 14 12 4 = 0 && fld p 16 9 7 = 0 && fld p 18 6 2 = 0 &&
    fld p 19 0 8 = 0 && fld p 40 14 2 = 0 && fld p 42 13 3 = 0 && fld p 44 13 3 = 0 && fld p 46 0 16 = 0 && fld p 60 0 32 = 0 && fld p 88 0 288 = 0

/-- Whether intervals (start, length) are pairwise apart; an empty one overlaps none. -/
def apart : List (Nat × Nat) → Bool
  | [] => true
  | a :: t => (a.2 = 0 || t.all fun b => b.2 = 0 || decide (a.1 + a.2 ≤ b.1) || decide (b.1 + b.2 ≤ a.1)) && apart t

/-- The header and the tables: places in multiples of 64, inside the image, no two overlapping (R253). -/
def tablesOk (p size : Nat) : Bool :=
  let t := [(plModtab p, 16 * plModules p), (plCoursetab p, 16 * plCycle p), (plOpsOff p, 16 * plOps p), (plSendOff p, 32 * plSends p),
    (plRecvOff p, 32 * plRecvs p)]
  t.all (fun x => decide (x.1 % 64 = 0) && decide (x.1 + x.2 ≤ size)) && apart ((0, 128) :: t)

/-- Whether the ranges of successive positions follow one another and cover a table of `n` entries (R256). -/
def rangesFollow (n : Nat) (rs : List (Nat × Nat)) : Bool :=
  (rs.foldl (fun (a : Bool × Nat) r => (a.1 && decide (r.1 = a.2), a.2 + r.2)) (true, 0)) = (true, n)

def positionsOk (p : Nat) : Bool :=
  let cs := (List.range (plCycle p)).map (coursePos p)
  cs.all (fun c => fld c 0 14 2 = 0 && fld c 2 14 2 = 0 && fld c 4 13 3 = 0 && fld c 6 13 3 = 0 && fld c 8 13 3 = 0 && fld c 10 13 3 = 0 &&
    fld c 12 1 31 = 0) &&
    rangesFollow (plOps p) (cs.map posOps) && rangesFollow (plSends p) (cs.map posSends) && rangesFollow (plRecvs p) (cs.map posRecvs)

def allOps (p : Nat) : List Nat := (List.range (plOps p)).map (opAt p)
def allSends (p : Nat) : List Nat := (List.range (plSends p)).map (sendAt p)
def allRecvs (p : Nat) : List Nat := (List.range (plRecvs p)).map (recvAt p)

def opsOk (p : Nat) : Bool :=
  (allOps p).all (fun e => oeDesc e % 64 = 0 && decide (1 ≤ oeSpan e) && fld e 11 1 7 = 0 && fld e 14 0 16 = 0 &&
    (decide (oeWait e = 0xFFFF) || decide (oeWait e < plRecvs p))) &&
    distinct (((allOps p).map oeTag).filter (· ≠ 0))

def slotEntryOk (p e : Nat) : Bool :=
  decide (seAddr e % 64 = 0) && decide (1 ≤ seLength e) && decide (seLength e ≤ 4194304) && fld e 10 7 9 = 0 && fld e 12 12 4 = 0 &&
    decide (sePeer e < plModules p) && fld e 15 2 5 = 0 && fld e 20 0 96 = 0

def sendsOk (p : Nat) : Bool :=
  (allSends p).all (fun e => slotEntryOk p e && (decide (seDep e = 0) || ((allOps p).map oeTag).contains (seDep e))) &&
    distinct ((allSends p).map seSlot)

def recvsOk (p : Nat) : Bool :=
  (allRecvs p).all (fun e => slotEntryOk p e && decide (seDep e = 0)) && distinct ((allRecvs p).map fun e => sePeer e * 4096 + seSlot e)

/-- Check INVALID_FIELD: VERSION, reserved fields, ranges, the layout of the tables. -/
def planFieldsOk (p size : Nat) : Bool :=
  decide (128 ≤ size) && headerOk p && tablesOk p size && (List.range (plModules p)).all (fun i => fld p (plModtab p + 16 * i + 12) 0 32 = 0) &&
    positionsOk p && opsOk p && sendsOk p && recvsOk p

/-- Check PLAN_CRC: CRC-32C of the image with its own field as zero, and PLAN_BYTES (R254). -/
def planCrcOk (p size : Nat) : Bool :=
  plBytes p = size && crc32c (leBytes 124 p ++ [0, 0, 0, 0] ++ (leBytes size p).drop 128) = fld p 124 0 32

/-- What occupies a port in a course of position `q`, at the base length (R260). -/
def portWindows (p q port : Nat) : List (Nat × Nat) :=
  let c := coursePos p q
  let mine := fun (l : List Nat) => (l.filter fun e => sePort e = port).map fun e => (seOffset e, slotNs (seLength e))
  mine ((rangeOf (posSends c)).map (sendAt p)) ++ mine ((rangeOf (posRecvs c)).map (recvAt p)) ++ [(plStatusOff p, 1)] ++
    (if plModule p = plKeystone p ∨ plModule p = plSuccessor p then [(plKeystoneOff p, 1)] else []) ++ [(plRepairOff p port, plRepairNs p port)]

def windowsOk (p : Nat) : Bool := (List.range (plCycle p)).all fun q => apart (portWindows p q 0) && apart (portWindows p q 1)

/-- Check DEADLINE. -/
def deadlinesOk (p : Nat) : Bool :=
  let L0 := 256 * plBase p
  (allSends p).all (fun e => decide (seOffset e + slotNs (seLength e) + plAckNs p ≤ L0) && decide (seOffset e < L0)) &&
    (allRecvs p).all (fun e => decide (seOffset e < L0)) && decide (plStatusOff p < L0) && decide (plKeystoneOff p < L0) &&
    [0, 1].all fun k => decide (plRepairOff p k + plRepairNs p k + plAckNs p ≤ L0) && decide (plRepairOff p k < L0)

/-- Whether a range lies in mapped memory of a partition (R260). -/
def inPartition (z : Fixed) (d : Dev) (part a n : Nat) : Bool := (checkPoints a n).all fun x => ownerOf z d x = some part

/-- Check ADDRESS. -/
def addressesOk (z : Fixed) (d : Dev) (part p : Nat) : Bool :=
  (allOps p).all (fun e => inPartition z d part (oeDesc e) 64) && (allSends p ++ allRecvs p).all fun e => inPartition z d part (seAddr e) (seLength e)

def Dev.joined (d : Dev) : Bool := d.bit F.CRS_JOB_JOINED
def Dev.suspended (d : Dev) : Bool := d.bit F.CRS_JOB_SUSPENDED
def Dev.jobFailed (d : Dev) : Bool := d.bit F.CRS_JOB_FAILED

/-- The place of a course in a cycle of `n` courses that began at course `phase` (R261). -/
def cyclePlace (n phase c : Nat) : Nat := (((c : Int) - phase) % (n : Int)).toNat

/-- The plan position of a course under a plan (R261). -/
def position (p phase c : Nat) : Nat := cyclePlace (plCycle p) phase c

/-- The load status of a plan (R260): the first check that fails. -/
def loadStatus (z : Fixed) (d : Dev) (part p size : Nat) (first : Bool) (swap : Nat) : Nat :=
  let mac := plMac p (plModule p) 0 = d.get (F.FAB_PORT_MAC_MAC 0) && plMac p (plModule p) 1 = d.get (F.FAB_PORT_MAC_MAC 1)
  let job := !d.joined || (plJob p = d.get F.CRS_JOB_JOB_ID && plModule p = d.get F.CRS_JOB_MODULE)
  let swapOk : Bool := first || match d.crs.active with
    | some a => decide (position a d.crs.phase swap = 0) && decide (d.course + 64 ≤ swap)
    | none => false
  if !planFieldsOk p size then 1
  else if !planCrcOk p size then 2
  else if !(mac && job) then 3
  else if !windowsOk p then 4
  else if !deadlinesOk p then 5
  else if !swapOk then 6
  else if d.crs.staged.isSome then 7
  else if !addressesOk z d part p then 8
  else 0

/-- The completion status of a load status (R320). -/
def loadCode (st : Nat) : Nat := if st ≤ 1 then st else stPlanCrc + st - 2

/-! ### PLAN_LOAD (R286) -/

/-- Remove the staged plan, with load status CANCELLED. -/
def Dev.dropStaged (d : Dev) : Dev :=
  { d with crs := { d.crs with staged := none } }.puts
    [(F.CRS_PLAN_STAGED_ID, 0), (F.CRS_PLAN_STATUS_STAGED_FIRST, 0), (F.CRS_PLAN_SWAP, 0)]

def Dev.cancelStaged (d : Dev) : Dev := if d.crs.staged.isSome then d.dropStaged.put F.CRS_PLAN_STATUS_LOAD_STATUS 9 else d

/-- The partition whose memory a plan of this module may use: the joining context's once joined (R260). -/
def Dev.planPart (d : Dev) (f : Flight) : Nat := if d.joined then enPart (d.entry d.crs.joinCtx) else f.partition

/-- Reserved fields of a PLAN_LOAD body (R9, R286). -/
def planLoadBodyOk (b : Nat) : Bool := fld b 28 2 6 = 0 && fld b 29 0 24 = 0 && fld b 40 0 192 = 0

/-- The alignment and length of a plan, which check FIELDS takes in (R254, R260). -/
def planShapeOk (b : Nat) : Bool := fld b 16 0 64 % 64 = 0 && decide (128 ≤ fld b 24 0 32) && decide (fld b 24 0 32 ≤ 524288)

/-- End a PLAN_LOAD that has read no plan: RESULT, the PLAN_ID of a plan that nobody has seen, is a free value (R321, log entry 270: DESIGN CHOICE). -/
def Dev.planUnread (d : Dev) (fl st : Nat) : Dev :=
  let (v, d) := d.drawFree
  d.modFlight fl fun f => { f with result := v.toNat % 2 ^ 16 }.finish st

/-- CANCEL = 1: the staged plan is removed, and RESULT is its PLAN_ID (R286, R321). -/
def Dev.planCancel (d : Dev) (fl : Nat) : Dev :=
  match d.crs.staged with
  | some p => (d.cancelStaged.modFlight fl fun f => { f with result := plId p }).done fl stCancelled
  | none => d.planUnread fl stOK

/-- Stage a plan that has been read, or refuse it. -/
def Dev.planLoad (z : Fixed) (d : Dev) (fl : Nat) (f : Flight) (p : Nat) : Dev :=
  let size := fld f.desc 24 0 32
  let first : Bool := fld f.desc 28 1 1 = 1
  let swap := fld f.desc 32 0 64
  let st := loadStatus z d (d.planPart f) p size first swap
  let d := d.put F.CRS_PLAN_STATUS_LOAD_STATUS st
  let d := if st ≠ 0 then d else
    { d with crs := { d.crs with staged := some p } }.puts [(F.CRS_PLAN_STAGED_ID, plId p), (F.CRS_PLAN_STATUS_STAGED_FIRST, b01 first),
      (F.CRS_PLAN_SWAP, if first then 0 else swap)]
  d.modFlight fl fun f => { f with result := plId p }.finish (loadCode st)

/-- What a PLAN_LOAD does (R260, R286). -/
def dispatchPlanLoad (z : Fixed) (d : Dev) (fl : Nat) (f : Flight) : Dev :=
  let b := f.desc
  if d.joined && d.jobFailed then d.planUnread fl stJobFailed
  else if fld b 28 0 1 = 1 then d.planCancel fl
  else if !planLoadBodyOk b then d.planUnread fl stInvalidField
  else if fld b 28 1 1 = 0 && !d.joined then d.planUnread fl stNotJoined
  else if fld b 28 1 1 = 0 && d.suspended then d.planUnread fl stJobSuspended
  else if !planShapeOk b then (d.put F.CRS_PLAN_STATUS_LOAD_STATUS 1).planUnread fl stInvalidField
  else match readStatus z d (some f.partition) (fld b 16 0 64) (fld b 24 0 32) with
  | some (a, st) => (d.countRefusal a st).planUnread fl st
  | none => (d.touch (fld b 16 0 64) (fld b 24 0 32)).planLoad z fl f (d.peekNat (fld b 16 0 64) (fld b 24 0 32))

/-! ### Anchor arithmetic (R248) -/

def Dev.lenNs (d : Dev) : Nat := 256 * d.get F.CRS_LEN_LEN

/-- B(c) under an anchor, in 64-bit integers. -/
def anchorTime (ca ta len c : Nat) : Nat := (ta + (c - ca) * (256 * len)) % 2 ^ 64

/-- B(c) under the anchor in force. -/
def Dev.boundaryOf (d : Dev) (c : Nat) : Nat := anchorTime (d.get F.CRS_ANCHOR_COURSE) (d.get F.CRS_ANCHOR_TIME) (d.get F.CRS_LEN_LEN) c

/-- The course that the anchor in force gives for the present fabric time (R248). -/
def Dev.courseNow (d : Dev) : Nat :=
  (((d.get F.CRS_ANCHOR_COURSE : Int) + ((d.time : Int) - d.get F.CRS_ANCHOR_TIME) / d.lenNs) % 2 ^ 64).toNat

/-! ### JOB_JOIN, JOB_LEAVE, CHECKPOINT, COURSE_WAIT (R287 to R290) -/

def joinBodyOk (z : Fixed) (d : Dev) (ctx b : Nat) : Bool :=
  let len := fld b 40 0 9
  fld b 18 10 6 = 0 && fld b 20 11 5 = 0 && fld b 22 1 7 = 0 && fld b 23 0 8 = 0 && fld b 41 1 7 = 0 && fld b 42 0 48 = 0 && fld b 56 0 64 = 0 &&
    decide (4 ≤ len) && decide (len ≤ 256) && vectorOk (z.fnOf ctx) (fld b 20 0 11) && decide (fld b 24 0 64 ≤ fld b 48 0 64) &&
    (match d.crs.staged with
      | some p => decide (plBase p ≤ len)
      | none => true)

/-- Show whether a context is pinned, by PIN or by the job (R323), in its status and that of its half. -/
def Dev.showPin (d : Dev) (c : Nat) (on : Bool) : Dev :=
  let was := d.get (F.CTX_STATUS_PINNED c)
  let q := c / 8192
  (d.put (F.CTX_STATUS_PINNED c) (b01 on)).put (F.HOST_QS_STATUS_PINNED q) (d.get (F.HOST_QS_STATUS_PINNED q) + b01 on - was)

def dispatchJobJoin (z : Fixed) (d : Dev) (fl : Nat) (f : Flight) : Dev :=
  let b := f.desc
  let ca := fld b 24 0 64
  let ta := fld b 32 0 64
  let len := fld b 40 0 9
  let c := fld b 48 0 64
  let plan : Bool := match d.crs.staged with
    | some p => d.bit F.CRS_PLAN_STATUS_STAGED_FIRST && plJob p = fld b 16 0 16 && plModule p = fld b 18 0 10
    | none => false
  if d.joined && d.jobFailed then d.done fl stJobFailed
  else if !joinBodyOk z d f.ctx b then d.done fl stInvalidField
  else if d.joined || d.crs.join.isSome then d.done fl stJobBusy
  else if d.timeState ≠ timeLocked then d.done fl stTimeNotLocked
  else if !(d.portUp 0 || d.portUp 1) then d.done fl stPortDown
  else if !plan then d.done fl stNoPlan
  else if anchorTime ca ta len c < d.time + 1000000 then d.done fl stCoursePassed
  else
    let j : Join := { flight := fl, ctx := f.ctx, jobId := fld b 16 0 16, module := fld b 18 0 10, vector := fld b 20 0 11, resuming := fld b 22 0 1 = 1,
                      anchorCourse := ca, anchorTime := ta, len := len, course := c }
    { d with crs := { d.crs with join := some j } }

def dispatchJobLeave (_z : Fixed) (d : Dev) (fl : Nat) (f : Flight) : Dev :=
  let c := fld f.desc 16 0 64
  if fld f.desc 24 0 320 ≠ 0 then d.done fl stInvalidField
  else if !d.joined then d.done fl stNotJoined
  else if c ≠ 0 ∧ c ≤ d.course then d.done fl stCoursePassed
  else { d with crs := { d.crs with leaves := d.crs.leaves ++ [(some fl, c)] } }

/-- Whether a course is a checkpoint course of the active plan. -/
def Dev.checkpointCourse (d : Dev) (c : Nat) : Bool := match d.crs.active with
  | some p => posCheckpoint (coursePos p (position p d.crs.phase c))
  | none => false

def dispatchCheckpoint (_z : Fixed) (d : Dev) (fl : Nat) (f : Flight) : Dev :=
  let c := fld f.desc 16 0 64
  if d.joined && d.jobFailed then d.done fl stJobFailed
  else if fld f.desc 24 1 7 ≠ 0 ∨ fld f.desc 25 0 312 ≠ 0 then d.done fl stInvalidField
  else if fld f.desc 24 0 1 = 0 then
    if !d.checkpointCourse c then d.done fl stInvalidField
    else if c ≤ d.course then d.done fl stCoursePassed
    else d.modFlight fl fun f => { f with armed := some c }
  else if !d.suspended || c ≠ d.get F.CRS_CKPT_COMMITTED then d.done fl stInvalidField
  else { d with crs := { d.crs with ready := some c } }

def dispatchCourseWait (_z : Fixed) (d : Dev) (fl : Nat) (f : Flight) : Dev :=
  let c := fld f.desc 16 0 64
  if fld f.desc 24 0 320 ≠ 0 then d.done fl stInvalidField
  else if c ≤ d.course then d.done fl stCoursePassed
  else d.modFlight fl fun f => { f with armed := some c }

/-! ### Notices (R285) -/

def noticeSuspension : Nat := 1
def noticeResumeAnnounced : Nat := 2
def noticeResumed : Nat := 3
def noticeTakeover : Nat := 4
def noticeFailed : Nat := 5

/-- Write CRS_NOTICE and raise NOTICE_VECTOR of the joining context. -/
def Dev.notice (z : Fixed) (d : Dev) (type module course : Nat) : Dev :=
  (d.puts [(F.CRS_NOTICE_TYPE, type), (F.CRS_NOTICE_COUNT, d.get F.CRS_NOTICE_COUNT + 1), (F.CRS_NOTICE_MODULE, module),
    (F.CRS_NOTICE_COURSE_LOW, course)]).sendMsix (z.fnOf d.crs.joinCtx) d.crs.vector

end Sys2Proof.Machine
end

