-- ==== Sys2Proof/Machine/Express.lean ====
section
/-! DEFINITION. Sys2Proof/Machine/Express.lean: contexts and the express path: doorbells, fetching, dispatch, completion, interrupts, faults and stops
(R302 to R334), and the activity energy of a descriptor (R390, R392). -/
namespace Sys2Proof.Machine

open Sys2Proof

/-! ### Energy (R390, R392) -/

/-- Coefficients in units of 0.1 pJ (R390). -/
def energyCoef : Nat → Nat
  | 0 => 1200 | 1 => 21 | 2 => 30 | 3 => 9000 | 4 => 1000 | 5 => 600
  | 6 => 80 | 7 => 200 | 8 => 300 | 9 => 33000 | 10 => 400 | _ => 300

/-- Voltage of a die's running point in mV. -/
def Dev.dieMv (d : Dev) (die : Nat) : Nat := d.get (F.PWR_OPP_VOLT_MV (d.get (F.PWR_DIE_OP_OP die)))

/-- The energy of an activity: the first nine rows scale with (V / 780 mV)². One µJ is `microJoule` units. -/
def Dev.actEnergy (d : Dev) (l : Activity) : Nat :=
  nsum (l.map fun x => x.2.2 * energyCoef x.2.1.val * (if x.2.1.val < 9 then d.dieMv x.1.val ^ 2 else 780 ^ 2))

def microJoule : Nat := 10 ^ 7 * 780 ^ 2

/-! ### Interrupts of a context (R322) -/

/-- Raise the vector of a context under an entry: sent at once, or held while moderation lasts; messages held together are sent as one. -/
def Dev.raiseCtx (z : Fixed) (d : Dev) (c e : Nat) : Dev :=
  if enNoVector e then d
  else
    let r := d.ctxRun c
    let early : Bool := match r.lastMsg with
      | some t => decide (d.now < t + 256 * enMod e)
      | none => false
    if early then d.modCtx c fun r => { r with heldMsg := r.heldMsg ++ [enVector e] }
    else (d.sendMsix (z.fnOf c) (enVector e)).modCtx c fun r => { r with lastMsg := some d.now }

/-- MSIX_MODERATION_EXPIRY: the messages held in a window are sent as one, whose vector, where theirs differ, is that of any of them (log entry 118: DESIGN
CHOICE). -/
def Dev.moderationEnd (z : Fixed) (d : Dev) (c : Nat) : Dev :=
  let r := d.ctxRun c
  match r.heldMsg with
  | [] => d
  | l =>
    let d := d.elapse ((r.lastMsg.getD 0 + 256 * enMod (d.entry c)) - d.now)
    let (v, d) := d.drawFree
    (d.sendMsix (z.fnOf c) (nth 0 l (v.toNat % l.length))).modCtx c fun r => { r with heldMsg := [], lastMsg := some d.now }

/-- MSIX_MODERATION_EXPIRY (R322). -/
def execMsixModerationExpiry (c : Fin 16384) (s : State) : Host.Outcome State Fault Refusal := s.upd fun z d => d.moderationEnd z c.val

/-! ### Completion records (R319 to R321) -/

/-- A completion record as 32 bytes. -/
def recordBytes (n m size status course energy : Nat) (k : Counts) (result : Nat) : List Byte :=
  leBytes 32 (n % 2 ^ 20 + (1 - m / size % 2) * 2 ^ 20 + k.flags % 32 * 2 ^ 21 + status % 64 * 2 ^ 26 + course % 2 ^ 32 * 2 ^ 32 +
    satField 24 energy * 2 ^ 64 + satField 24 k.sat * 2 ^ 88 + satField 24 k.flushed * 2 ^ 112 + satField 16 k.nan * 2 ^ 136 +
    satField 24 k.splits * 2 ^ 152 + satField 16 k.nulls * 2 ^ 176 + result % 2 ^ 64 * 2 ^ 192)

/-- RESULT of a MATRIX (R321). -/
def matrixResult (k : Counts) : Nat :=
  satField 16 k.satChunks + satField 16 k.satTiles * 2 ^ 16 + satField 16 k.replayed * 2 ^ 32 +
    (match k.firstSat with
      | some t => min t 0xFFFE
      | none => 0xFFFF) * 2 ^ 48

/-- Write a record into the completion ring of a context, unless no host access may be made for it (R332), and raise its vector if asked. -/
def Dev.writeRecord (z : Fixed) (d : Dev) (c n e status energy course : Nat) (k : Counts) (result : Nat) (irq : Bool) : Dev :=
  let d := d.bump (F.CTX_CNT_DESC c) 1
  if (d.ctxRun c).silent then d
  else
    let g := d.entry c
    let m := d.get (F.CTX_PROGRESS_CPL_COUNT c)
    let d := d.emit (.hostWrite (z.fnOf c) (enCpl g + 32 * (m % enSize g)) (recordBytes n m (enSize g) status course energy k result))
    let d := (d.put (F.CTX_PROGRESS_CPL_COUNT c) (m + 1)).bump F.HOST_CNT_DESC_COMPLETED 1
    if irq then d.raiseCtx z c e else d

/-- A fetched descriptor of the ring has completed: it is in flight no more. -/
def Dev.leaveFlight (d : Dev) (c : Nat) : Dev := d.put (F.CTX_STATUS_INFLIGHT c) (d.get (F.CTX_STATUS_INFLIGHT c) - 1)

/-- Whether a descriptor asks for an interrupt (R309). -/
def descIrq (b : Nat) : Bool := fld b 1 0 1 = 1
def descOp (b : Nat) : Nat := fld b 0 0 8

/-- Whether every earlier descriptor of a flight's ring has completed (R289, R317). -/
def Dev.earlierDone (d : Dev) (f : Flight) : Bool :=
  !(d.host.flights.any fun p => p.2.ctx = f.ctx && p.2.item.isNone && decide (p.2.seq < f.seq))

/-- Whether a FENCE is satisfied (R317). -/
def Dev.fenceDone (d : Dev) (f : Flight) : Bool :=
  d.earlierDone f && (fld f.desc 16 0 1 = 0 || !(d.host.flights.any fun p => p.2.partition = f.partition && decide (p.2.seq < f.seq)))

def Flight.isFence (f : Flight) : Bool := descOp f.desc = 0x0A
/-- A CHECKPOINT with MODE 0. -/
def Flight.isSave (f : Flight) : Bool := descOp f.desc = 0x0E && fld f.desc 24 0 1 = 0

/-- Whether a flight may complete: its work has ended, its FENCE is satisfied, or its checkpoint course and the descriptors before it have passed. -/
def Dev.mayComplete (d : Dev) (f : Flight) : Bool :=
  f.ready || (f.isFence && d.fenceDone f) || (f.isSave && f.armed.isNone && d.earlierDone f)

/-- Write every assembly slot that holds bytes of a flight (R223, R311). -/
def Dev.closeSlots (d : Dev) (fl : Nat) : Dev :=
  d.wall.slots.foldl (fun d t => if t.flights.contains fl then d.askClose t else d) d

/-- Whether bytes of a flight still wait for a stripe lock: in a slot, or in a request of their own (R222, R223). -/
def Dev.writesWait (d : Dev) (fl : Nat) : Bool :=
  (d.wall.slots.any fun t => t.flights.contains fl) || d.wall.waiting.any fun r => match r.work with
    | .write f _ => f = some fl
    | _ => false

/-- A plan item that ended: its operation is done, and a lasting failure of the module where it ended with an error (R267, R272). -/
def Dev.itemDone (d : Dev) (key status : Nat) : Dev :=
  let bad : Bool := decide (status ≠ stOK)
  { d with crs := { d.crs with
      ops := d.crs.ops.map fun o => if o.key = key then { o with done := some d.time, failed := bad } else o,
      lasting := if bad && d.crs.lasting.isNone then some (3, 0, 0) else d.crs.lasting,
      detected := d.crs.detected || bad } }

/-- RESULT of a flight as its record gives it (R321). -/
def Flight.resultOf (f : Flight) (course : Nat) : Nat :=
  match descOp f.desc with
  | 0x01 => matrixResult f.counts
  | 0x09 | 0x0C | 0x0D | 0x0E => f.stamp.getD course
  | _ => f.result

/-- Complete a flight: its record is written behind all its writes (R16, R223), for whose stripe locks it waits, and its vector raised. `lost`: the write of
the record is rejected (R328). -/
def Dev.completeFlight (z : Fixed) (d : Dev) (fl : Nat) (acts : Activity) (lost : Bool) : Dev :=
  let d := d.closeSlots fl
  match d.flight fl with
  | none => d
  | some f =>
    if d.writesWait fl then d else
    let st := f.status
    let d := { d with host := { d.host with flights := terase d.host.flights fl } }
    let d := if f.isSave && st = stOK then d.put F.CRS_CKPT_DONE (fld f.desc 16 0 64) else d
    let energy := (f.energy + d.actEnergy acts * d.pwr.fNum / d.pwr.fDen) / microJoule
    let d := match f.item with
      | some key => d.itemDone key st
      | none => (d.leaveFlight f.ctx).modCtx f.ctx fun r => { r with lastUse := d.now }
    if lost ∨ !(f.report ∨ st ≠ stOK) then (if f.item.isNone then d.bump (F.CTX_CNT_DESC f.ctx) 1 else d)
    else d.writeRecord z f.ctx f.n f.entry st energy (f.stamp.getD d.course) f.counts (f.resultOf d.course) (descIrq f.desc)

/-! ### Shadow reads and fetching (R305 to R308) -/

def Dev.hostRead (z : Fixed) (d : Dev) (c a n : Nat) : Dev := d.emit (.hostRead (z.fnOf c) a n)

/-- Read the shadow, unless a read is outstanding: then AGAIN is set (R307). -/
def Dev.readShadow (z : Fixed) (d : Dev) (c : Nat) : Dev :=
  if (d.ctxRun c).shadowOut then d.modCtx c fun r => { r with again := true }
  else ((d.modCtx c fun r => { r with shadowOut := true, shadowRetry := false }).hostRead z c (enShadow (d.entry c)) 8).bump F.HOST_CNT_SHADOW_READS 1

def sub32 (a b : Nat) : Nat := (a + 2 ^ 32 - b % 2 ^ 32) % 2 ^ 32

/-- Fetch what may be fetched: up to 8 consecutive descriptors that do not cross the end of the ring (R308). -/
def Dev.fetch (z : Fixed) (d : Dev) (c : Nat) : Dev :=
  if d.ctxState c ≠ codeON || !d.bit (F.CTX_STATUS_RESIDENT c) || (d.ctxRun c).fetchOut.isSome then d
  else
    let e := d.entry c
    let size := enSize e
    let n := d.get (F.CTX_PROGRESS_FETCHED c)
    let want := sub32 (d.get (F.CTX_SHADOW_SEEN_TAIL c)) n
    let room := size - sub32 n (d.get (F.CTX_SHADOW_SEEN_CPL_HEAD c))
    let free := 64 - d.get (F.CTX_STATUS_INFLIGHT c)
    let k := min (min 8 want) (min (min room free) (size - n % size))
    let d := d.put (F.CTX_STATUS_CPL_STALL c) (b01 (decide (0 < want ∧ 0 < free ∧ room = 0)))
    if k = 0 then d
    else (d.modCtx c fun r => { r with fetchOut := some (n, k, e), fetchRetry := false }).hostRead z c (enRing e + 64 * (n % size)) (64 * k)

/-! ### Stopping (R329) -/

/-- The flight of a descriptor of a context that is dispatched, as number `fl`: RESULT stands at what a descriptor has that does nothing (R321). -/
def newFlight (c : Nat) (q : Fetched) (fl : Nat) (item : Option Nat) (report : Bool) : Flight :=
  { ctx := c, n := q.n, desc := q.desc, entry := q.entry, partition := enPart q.entry, seq := fl, item := item, report := report,
    result := if descOp q.desc = 0x02 then writeResult [] else 0 }

/-- The flight of an operation of the plan that ends at once with the status it has been refused with (R267). -/
def Dev.itemFlight (d : Dev) (o : PlanOp) : Dev :=
  let c := d.crs.joinCtx
  let (n, d) := d.drawFree
  let fl := d.host.nextId
  let d := { d with crs := { d.crs with ops := d.crs.ops.map fun (x : PlanOp) => if x.key = o.key then { x with flight := some fl } else x } }
  ({ d with host := { d.host with nextId := fl + 1 } }.setFlight fl
    (newFlight c ⟨n.toNat % 2 ^ 20, o.desc, d.entry c, false⟩ fl (some o.key) o.report)).done fl o.refused

/-- Take the writes of a WEIGHT_WRITE that no macro has started, ABORTED (R65). -/
def Dev.abortWrites (d : Dev) (fl : Nat) (f : Flight) : Dev :=
  f.left.foldl (fun d k =>
    let r := d.macroRun (k / 68) (k % 68)
    if r.waiting.any (fun j => j.src = .desc fl) then
      (d.modMacro (k / 68) (k % 68) fun r => { r with waiting := r.waiting.filter fun j => j.src ≠ .desc fl }).noteWriteEnd (k / 68) (k % 68) (.desc fl) stAborted
    else d) (d.modFlight fl fun f => { f with aborting := true })

/-- What abort mode does with a dispatched descriptor (R329). -/
def Dev.abortFlight (d : Dev) (fl : Nat) : Dev :=
  match d.flight fl with
  | none => d
  | some f =>
    if f.ready then d
    else match descOp f.desc with
    | 0x01 => d.endOp fl stAborted
    | 0x02 => d.abortWrites fl f
    | 0x04 => d.done fl stAborted
    | 0x0A => d.done fl stAborted
    | _ => d

/-- Whether a descriptor is an armed item that a stop completes at once: an operation with AT_COURSE, a COURSE_WAIT or a CHECKPOINT (R329). -/
def Flight.armedItem (f : Flight) : Bool := !f.ready && (f.armed.isSome || descOp f.desc = 0x0E)

/-- The dispatched descriptors of a context, by number. -/
def Dev.flightsOf (d : Dev) (c : Nat) : List Nat := (d.host.flights.filter fun p => p.2.ctx = c).map (·.1)

/-- A context that joined a job arms a leave at the next boundary when it is disabled (R331). -/
def Dev.leaveWith (d : Dev) (c : Nat) : Dev :=
  if d.joined && d.crs.joinCtx = c then { d with crs := { d.crs with leaves := d.crs.leaves ++ [(none, 0)] } } else d

/-- Operations of the plan that have not started are no flights yet: abort mode ends those of the joining context, which wait for a receive or for cores, with
ABORTED (R329). -/
def Dev.abortItems (d : Dev) (c : Nat) : Dev :=
  if !d.joined || d.crs.joinCtx ≠ c then d
  else (d.crs.ops.filter fun o => o.flight.isNone).foldl (fun d o => d.itemFlight { o with refused := stAborted }) d

/-- A fetched descriptor that its context will not dispatch: it completes with CONTEXT_STOPPED once its record is written (R329). -/
def Dev.stopFetched (d : Dev) (c : Nat) (q : Fetched) : Dev :=
  let fl := d.host.nextId
  let d := { d with host := { d.host with nextId := fl + 1 } }.setFlight fl (newFlight c q fl none true)
  if descOp q.desc = 0x08 then d.planUnread fl stContextStopped else d.done fl stContextStopped

/-- STOPPING begins (R329): fetching ends, fetched and armed descriptors complete with CONTEXT_STOPPED, and in abort mode the dispatched ones end. Their
records are then written as those of any other descriptor are. -/
def Dev.ctxStopping (d : Dev) (c : Nat) : Dev :=
  let r := d.ctxRun c
  let e := d.entry c
  let abort := r.abort || enAbort e
  let d := (d.put (F.CTX_STATE_STATE c) codeSTOPPING).put (F.CTX_STATE_ENABLE_PENDING c) 0
  let d := d.put (F.CTX_STATUS_CPL_STALL c) 0
  let d := d.modCtx c fun r => { r with queue := [], shadowOut := false, again := false, startDoorbell := false, shadowRetry := false,
                                        fetchOut := none, fetchRetry := false, evicting := false, abort := abort }
  let d := (d.flightsOf c).foldl (fun d fl => match d.flight fl with
    | none => d
    | some f => if !f.armedItem then d else if descOp f.desc = 0x01 then d.endOp fl stContextStopped else d.done fl stContextStopped) d
  let d := if abort then (d.flightsOf c).foldl (fun d fl => d.abortFlight fl) (d.abortItems c) else d
  let d := r.queue.foldl (fun d q => if r.silent then d.leaveFlight c else d.stopFetched c q) d
  d.leaveWith c

/-- A context in drain mode that is already STOPPING goes over to abort mode. -/
def Dev.ctxAbort (d : Dev) (c : Nat) : Dev :=
  (d.flightsOf c).foldl (fun d fl => d.abortFlight fl) (d.modCtx c fun r => { r with abort := true })

/-- Hardware writes EN = 0 in a context's state word (R31, R35). -/
def Dev.ctxDisable (d : Dev) (c : Nat) : Dev :=
  let d := d.put (F.CTX_STATE_EN c) 0
  match d.ctxState c with
  | 2 => d.ctxStopping c
  | 3 => d.put (F.CTX_STATE_ENABLE_PENDING c) 0
  | _ => d

/-- A context fault (R328): FAULT and its cause, EN cleared, the vector raised, and the stop in abort mode. -/
def Dev.ctxFault (z : Fixed) (d : Dev) (c cause : Nat) : Dev :=
  let d := (d.put (F.CTX_STATUS_FAULT c) 1).put (F.CTX_STATUS_FAULT_CAUSE c) cause
  let d := d.raiseCtx z c (d.entry c)
  let stopping : Bool := d.ctxState c = codeSTOPPING
  let d := (d.modCtx c fun r => { r with abort := true }).ctxDisable c
  if stopping then d.ctxAbort c else d

/-! ### Residency (R323 to R325) -/

def Dev.residents (d : Dev) (q : Nat) : Nat := d.get (F.HOST_QS_STATUS_RESIDENT q)

/-- A context takes or gives up a resident place. -/
def Dev.setResident (d : Dev) (c : Nat) (on : Bool) : Dev :=
  let q := c / 8192
  let was := d.get (F.CTX_STATUS_RESIDENT c)
  (d.put (F.CTX_STATUS_RESIDENT c) (b01 on)).put (F.HOST_QS_STATUS_RESIDENT q) (d.residents q + b01 on - was)

def Dev.setPending (d : Dev) (c : Nat) (on : Bool) : Dev :=
  let q := c / 8192
  let was := d.get (F.CTX_STATUS_PENDING_DB c)
  let d := (d.put (F.CTX_STATUS_PENDING_DB c) (b01 on)).put (F.HOST_QS_STATUS_PENDING q) (d.get (F.HOST_QS_STATUS_PENDING q) + b01 on - was)
  if on then d else d.put (F.CTX_STATUS_BUSY c) 0

/-- The queue scheduler of a half: Helam processors 1 and 2. -/
def Dev.schedOn (d : Dev) (q : Nat) : Bool := d.get (F.FW_PROC_STATE_STATE (q + 1)) = codeON

/-- Pending contexts of a half, in context order. -/
def Dev.pendingOf (d : Dev) (q : Nat) : List Nat := (d.host.ctx.filter fun p => p.1 / 8192 = q && d.bit (F.CTX_STATUS_PENDING_DB p.1)).map (·.1)

/-- BUSY_SET: pending contexts are marked BUSY while there are too many of them or the scheduler is not ON (R325). -/
def Dev.busySync (d : Dev) (q : Nat) : Dev :=
  let active : Bool := decide (max 1 (d.get F.HOST_QS_CFG_BUSY_THRESHOLD) ≤ d.get (F.HOST_QS_STATUS_PENDING q)) || !d.schedOn q
  let d := (d.put (F.HOST_QS_STATUS_BUSY_ACTIVE q) (b01 active)).put (F.HOST_QS_STATUS_SCHED_ON q) (b01 (d.schedOn q))
  if active then (d.pendingOf q).foldl (fun d c => if d.bit (F.CTX_STATUS_BUSY c) then d
    else (d.put (F.CTX_STATUS_BUSY c) 1).bump F.HOST_CNT_BUSY 1) d
  else d

/-- Resident contexts of a half that may be put out: unpinned, without fetched descriptors and with no read of
their rings or shadows outstanding. -/
def Dev.evictable (d : Dev) (q : Nat) : List Nat :=
  (d.host.ctx.filter fun p => p.1 / 8192 = q && d.bit (F.CTX_STATUS_RESIDENT p.1) && !d.bit (F.CTX_STATUS_PINNED p.1) &&
    d.get (F.CTX_STATUS_INFLIGHT p.1) = 0 && p.2.fetchOut.isNone && !p.2.shadowOut).map (·.1)

/-- The one of a list of contexts that was used longest ago. -/
def Dev.oldest (d : Dev) (l : List Nat) : Option Nat :=
  l.foldl (fun a c => match a with
    | none => some c
    | some b => if (d.ctxRun c).lastUse < (d.ctxRun b).lastUse then some c else some b) none

/-- A context takes a resident place where one is free; a pinned one else takes that of the idle context used longest ago (R323). While the queue scheduler is
not ON nobody is admitted or put out (R327). -/
def Dev.takePlace (d : Dev) (c : Nat) : Dev :=
  let q := c / 8192
  if d.bit (F.CTX_STATUS_RESIDENT c) || !d.schedOn q then d
  else if d.residents q < 1024 then d.setResident c true
  else if !d.bit (F.CTX_STATUS_PINNED c) then d
  else match d.oldest (d.evictable q) with
    | some v => (((d.setResident v false).modCtx v fun r => { r with evicting := false }).bump F.HOST_CNT_EVICTIONS 1).setResident c true
    | none => d

/-- A context that has a place proceeds to read its shadow (R307); one that has found none waits for admission (R324), a pinned one too (log entry 269: DESIGN
CHOICE). -/
def Dev.proceed (z : Fixed) (d : Dev) (c : Nat) : Dev :=
  if d.bit (F.CTX_STATUS_RESIDENT c) then (if d.bit (F.CTX_STATUS_PENDING_DB c) then (d.setPending c false).busySync (c / 8192) else d).readShadow z c
  else (d.setPending c true).busySync (c / 8192)

/-- A context reaches ON: it takes a place where it can, and reads its shadow (R307, R323, R329). -/
def Dev.ctxOn (z : Fixed) (d : Dev) (c : Nat) : Dev :=
  ((d.modCtx c fun r => { r with startDoorbell := false, abort := false, silent := false, lastUse := d.now }).takePlace c).proceed z c

/-- A context reaches OFF (R329, R332): its place is free, and after a reset of its function its counts are zero. -/
def Dev.ctxOff (d : Dev) (c : Nat) : Dev :=
  let quiet := (d.ctxRun c).silent
  let d := if d.bit (F.CTX_STATUS_RESIDENT c) then d.setResident c false else d
  let d := if d.bit (F.CTX_STATUS_PENDING_DB c) then d.setPending c false else d
  let d := d.modCtx c fun r => { r with abort := false, silent := false }
  let d := if quiet then d.puts [(F.CTX_PROGRESS_FETCHED c, 0), (F.CTX_PROGRESS_CPL_COUNT c, 0), (F.PWR_CTX_ENERGY c, 0)] else d
  d.busySync (c / 8192)

/-- QS_ADMIT: pending contexts that are ON take the free places, in class order and in context order within a class (R324). -/
def Dev.admission (z : Fixed) (d : Dev) (q : Nat) : Dev :=
  if !d.schedOn q then d.busySync q
  else
    let l := (List.range 4).flatMap fun k => (d.pendingOf q).filter fun c => enPriority (d.entry c) = k && d.ctxState c = codeON
    let d := l.foldl (fun d c => if 1024 ≤ d.residents q then d
      else (((d.setPending c false).setResident c true).bump F.HOST_CNT_ADMISSIONS 1).readShadow z c) d
    d.busySync q

/-- QS_ADMIT (R324). -/
def execQsAdmit (q : Fin 2) (s : State) : Host.Outcome State Fault Refusal := s.upd fun z d => d.admission z q.val

/-- QS_EVICT: a scheduler that has no place for a pending context begins to put out one that has been idle for IDLE_US (R324). -/
def Dev.evict (d : Dev) (q c : Nat) : Dev :=
  let idle : Bool := decide ((d.ctxRun c).lastUse + 1000 * d.get F.HOST_QS_CFG_IDLE_US ≤ d.now)
  if d.schedOn q && d.pendingOf q ≠ [] && decide (1024 ≤ d.residents q) && (d.evictable q).contains c && idle then
    d.modCtx c fun r => { r with evicting := true }
  else d

/-- QS_EVICT, `ns` after the last event (R324). -/
def execQsEvict (q : Fin 2) (c : Fin 16384) (ns : Nat) (s : State) : Host.Outcome State Fault Refusal := s.upd fun _ d =>
  (d.elapse ns).evict q.val c.val

/-- EVICTION_COMPLETE (R324): not while the queue scheduler is away (R327). -/
def execEvictionComplete (c : Fin 16384) (s : State) : Host.Outcome State Fault Refusal := s.upd fun _ d =>
  if (d.ctxRun c.val).evicting && d.schedOn (c.val / 8192) then
    ((d.setResident c.val false).modCtx c.val fun r => { r with evicting := false }).bump F.HOST_CNT_EVICTIONS 1
  else d

/-! ### Doorbells (R306, R307) -/

/-- The context of a doorbell page of a function: a virtual function reaches those that it owns (R295, R299). -/
def doorbellCtx (z : Fixed) (f page : Nat) : Option Nat :=
  if f = 0 then (if page < 16384 then some page else none)
  else if z.owner ((z.ctxRange f).1 + page) = some f then some ((z.ctxRange f).1 + page) else none

def Dev.doorbell (z : Fixed) (d : Dev) (c : Nat) : Dev :=
  let d := (d.bump F.HOST_CNT_DOORBELLS 1).bump (F.CTX_CNT_DOORBELL c) 1
  match d.ctxState c with
  | 1 => d.modCtx c fun r => { r with startDoorbell := true }
  | 2 =>
    let d := d.modCtx c fun r => { r with lastUse := d.now, evicting := false }
    if d.bit (F.CTX_STATUS_RESIDENT c) then
      (if (d.ctxRun c).shadowOut then d.bump F.HOST_CNT_DB_COALESCED 1 else d).readShadow z c
    else (d.setPending c true).busySync (c / 8192)
  | _ => d

/-- DOORBELL: an access in BAR2 of a function that decodes it (R293, R306, R336): reads return zero, and only a write of 4 or 8 bytes at offset 0 of a page is
a doorbell. -/
def execDoorbell (f : Fin 64) (page off : Nat) (acc : DoorbellAccess) (s : State) : Host.Outcome State Fault Refusal := s.upd fun z d =>
  match acc with
  | .read len => d.emit (if d.barOpen (.fn f) then .doorbellReply f.val (List.replicate len 0) else .unsupported f.val)
  | .write len =>
    if !d.barOpen (.fn f) || decide (off ≠ 0) || !(len = 4 || len = 8) then d
    else match doorbellCtx z f.val page with
    | some c => d.doorbell z c
    | none => d

/-- SHADOW_READ_RETURN (R305, R307, R308). -/
def Dev.shadowReturn (z : Fixed) (d : Dev) (c tail head : Nat) : Dev :=
  let r := d.ctxRun c
  if !r.shadowOut || d.ctxState c ≠ codeON then d
  else
    let d := if r.shadowRetry then d.bump F.HOST_CNT_DMA_TRANSIENT 1 else d
    let d := d.modCtx c fun r => { r with shadowOut := false, shadowRetry := false, again := false }
    let size := enSize (d.entry c)
    if size < sub32 tail (d.get (F.CTX_PROGRESS_FETCHED c)) ∨ size < sub32 (d.get (F.CTX_PROGRESS_CPL_COUNT c)) head then d.ctxFault z c 3
    else
      let d := (d.put (F.CTX_SHADOW_SEEN_TAIL c) tail).put (F.CTX_SHADOW_SEEN_CPL_HEAD c) head
      let d := d.fetch z c
      if r.again then d.readShadow z c else d

/-- SHADOW_READ_RETURN (R307). -/
def execShadowReadReturn (c : Fin 16384) (tail head : BitVec 32) (s : State) : Host.Outcome State Fault Refusal := s.upd fun z d =>
  d.shadowReturn z c.val tail.toNat head.toNat

/-- Whether a descriptor's header is one of the table of opcodes with its reserved bits zero (R9, R309, R310). -/
def headerValid (b : Nat) : Bool := decide (1 ≤ descOp b) && decide (descOp b ≤ 0x0E) && fld b 1 2 6 = 0 && fld b 2 0 112 = 0

/-- DESCRIPTOR_FETCH_RETURN (R308). -/
def Dev.fetchReturn (z : Fixed) (d : Dev) (c : Nat) (ds : List Nat) : Dev :=
  let r := d.ctxRun c
  match r.fetchOut with
  | none => d
  | some (n, k, e) =>
    if ds.length ≠ k then d
    else
      let d := if r.fetchRetry then d.bump F.HOST_CNT_DMA_TRANSIENT 1 else d
      let new : List Fetched := (List.range k).map fun i =>
        ⟨(n + i) % 2 ^ 32, nth 0 ds i, e, !headerValid (nth 0 ds i)⟩
      let d := d.modCtx c fun r => { r with queue := r.queue ++ new, fetchOut := none, fetchRetry := false, lastUse := d.now }
      let d := (d.put (F.CTX_PROGRESS_FETCHED c) (n + k)).put (F.CTX_STATUS_INFLIGHT c) (d.get (F.CTX_STATUS_INFLIGHT c) + k)
      (d.bump F.HOST_CNT_DESC_FETCHED k).fetch z c

/-- DESCRIPTOR_FETCH_RETURN (R308). -/
def execDescriptorFetchReturn (c : Fin 16384) (ds : List (BitVec 512)) (s : State) : Host.Outcome State Fault Refusal := s.upd fun z d =>
  d.fetchReturn z c.val (ds.map (·.toNat))

/-! ### Dispatch (R310, R311, R326) -/

/-- What a descriptor does when it is dispatched, by opcode. -/
def dispatchBody (z : Fixed) (d : Dev) (fl : Nat) (f : Flight) : Dev :=
  match descOp f.desc with
  | 0x01 => dispatchMatrix z d fl f
  | 0x02 => dispatchWeightWrite z d fl f
  | 0x03 => dispatchBankSwap z d fl f
  | 0x04 => dispatchCopy z d fl f
  | 0x05 => dispatchFill z d fl f
  | 0x06 => dispatchConvert z d fl f
  | 0x07 => dispatchStats z d fl f
  | 0x08 => dispatchPlanLoad z d fl f
  | 0x09 => dispatchCourseWait z d fl f
  | 0x0A => if fld f.desc 16 1 383 = 0 then d else d.done fl stInvalidField
  | 0x0B => dispatchEvent z d fl f
  | 0x0C => dispatchJobJoin z d fl f
  | 0x0D => dispatchJobLeave z d fl f
  | 0x0E => dispatchCheckpoint z d fl f
  | _ => d.done fl stInvalidField

/-- Dispatch a descriptor of a context: from its ring, or as an item of its plan (R267). -/
def Dev.dispatch (z : Fixed) (d : Dev) (c : Nat) (q : Fetched) (item : Option Nat) (report : Bool) : Dev :=
  let fl := d.host.nextId
  let f := newFlight c q fl item report
  let d := { d with host := { d.host with nextId := fl + 1 } }.setFlight fl f
  if q.bad then (if descOp q.desc = 0x08 then d.planUnread fl stInvalidField else d.done fl stInvalidField) else dispatchBody z d fl f

/-- Whether a MATRIX must wait for cores that another operation holds (R311): it asks for no course and its record can be read. -/
def Dev.coresWanted (z : Fixed) (d : Dev) (q : Fetched) : Bool :=
  let a := fld q.desc 16 0 64
  let part := enPart q.entry
  descOp q.desc = 0x01 && !q.bad && matrixBodyOk q.desc && fld q.desc 24 0 1 = 0 && (readStatus z d (some part) a 512).isNone &&
    (let o := d.peekNat a 512
     opRecordOk z o part (fld q.desc 24 1 1 = 1) && d.coresBusy o)

/-- Whether the first descriptor of a context's queue may be dispatched now (R309, R311, R317): its partition accepts work only when ON (R236); job descriptors wait for Helam processor 3 (R352). -/
def Dev.canDispatch (z : Fixed) (d : Dev) (c : Nat) : Option Fetched :=
  match (d.ctxRun c).queue with
  | [] => none
  | q :: _ =>
    let mine := d.host.flights.filter fun p => p.2.ctx = c && p.2.item.isNone
    let waits : Bool := !q.bad && [0x08, 0x0C, 0x0D, 0x0E].contains (descOp q.desc) && d.get (F.FW_PROC_STATE_STATE 3) ≠ codeON
    let part : Bool := d.partState (enPart q.entry) = codeON
    if d.ctxState c ≠ codeON || !part || waits || (fld q.desc 1 1 1 = 1 && !q.bad && decide (mine ≠ [])) || mine.any (fun p => p.2.isFence) ||
      d.coresWanted z q then none else some q

/-- Whether the receive that an operation of the plan waits for has completed (R267); one whose failure has become lasting never lets it start (R272). -/
def Dev.recvMet (d : Dev) (o : PlanOp) : Bool := match o.waits with
  | none => true
  | some (ix, c) => d.crs.recvs.any fun r => r.ix = ix && r.course = c && r.done && !r.lasting

/-- Start an operation of the plan as if it came from the joining context (R267). -/
def Dev.startItem (z : Fixed) (d : Dev) (o : PlanOp) : Dev :=
  if o.refused ≠ 0 then d.itemFlight o else
  let c := d.crs.joinCtx
  let (n, d) := d.drawFree
  let op := descOp o.desc
  let course := (op = 0x01 && fld o.desc 24 0 1 = 1) || (op = 0x03 && fld o.desc 21 1 1 = 1)
  let ok : Bool := ((decide (1 ≤ op) && decide (op ≤ 7)) || op = 0x0B) && !course && fld o.desc 1 2 6 = 0 && fld o.desc 2 0 112 = 0
  let q : Fetched := ⟨n.toNat % 2 ^ 20, o.desc, d.entry c, !ok⟩
  let fl := d.host.nextId
  let d := { d with crs := { d.crs with ops := d.crs.ops.map fun (x : PlanOp) => if x.key = o.key then { x with flight := some fl } else x } }
  d.dispatch z c q (some o.key) o.report

/-- Whether the joining context runs operations of the plan: it is ON, or stops in drain mode (R329), the job has not failed and its plan runs on (R271, R284). -/
def Dev.itemsRun (d : Dev) : Bool :=
  let c := d.crs.joinCtx
  (d.ctxState c = codeON || (d.ctxState c = codeSTOPPING && !(d.ctxRun c).abort)) && !d.jobFailed && !d.crs.halted

/-- Start every operation of the plan whose receive is complete and whose cores are free, in entry order (R267, R276). -/
def Dev.startItems (z : Fixed) (d : Dev) : Dev :=
  d.crs.ops.foldl (fun d o =>
    if o.flight.isSome || !d.itemsRun || !d.recvMet o || d.coresWanted z ⟨0, o.desc, d.entry d.crs.joinCtx, false⟩ then d
    else d.startItem z o) d

/-- The contexts whose first descriptor may be dispatched, with its class. -/
def Dev.readyCtxs (z : Fixed) (d : Dev) : List (Nat × Nat) :=
  d.host.ctx.filterMap fun p => (d.canDispatch z p.1).map fun q => (p.1, enPriority q.entry)

/-- The context whose turn it is: the lowest class, and within it the next context after the one dispatched last (R326). -/
def Dev.nextTurn (z : Fixed) (d : Dev) : Option Nat :=
  let l := d.readyCtxs z
  (List.range 4).findSome? fun k =>
    let m := (l.filter fun p => p.2 = k).map (·.1)
    match m.find? fun c => decide (tget 16384 d.host.lastDispatch k < c) with
    | some c => some c
    | none => m.head?

/-- Dispatch the first descriptor of a context when it may be and it is the context's turn. `want` says which descriptors the command takes. -/
def Dev.dispatchFront (z : Fixed) (d : Dev) (c : Nat) (want : Fetched → Bool) : Dev :=
  match d.canDispatch z c with
  | none => d
  | some q =>
    if !want q || d.nextTurn z ≠ some c then d
    else
      let d := d.modCtx c fun r => { r with queue := r.queue.drop 1 }
      let d := { d with host := { d.host with lastDispatch := tset d.host.lastDispatch (enPriority q.entry) c } }
      d.dispatch z c q none true

/-- The COPY of a context that has waited longest for host data. -/
def Dev.waitingCopy (d : Dev) (c : Nat) : Option Nat := (d.host.flights.find? fun p => p.2.ctx = c && p.2.host ≠ 0 && !p.2.ready).map (·.1)

/-- Deliver host data, or dispatch the context's first descriptor and deliver it the data that comes with it. -/
def Dev.dispatchWith (z : Fixed) (d : Dev) (c : Nat) (want : Fetched → Bool) (data : Option (List Byte)) : Dev :=
  match d.waitingCopy c, data with
  | some fl, some b => d.copyArrive z fl b
  | _, _ =>
    let d := d.dispatchFront z c want
    let d := if d.joined && d.crs.joinCtx = c then d.startItems z else d
    match d.waitingCopy c, data with
    | some fl, some b => d.copyArrive z fl b
    | _, _ => d

def wantOp (op : Nat) (q : Fetched) : Bool := !q.bad && descOp q.desc = op
def wantEvent (op : Nat) (q : Fetched) : Bool := wantOp 0x0B q && fld q.desc 32 0 2 = op

/-- DESCRIPTOR_DISPATCH: whatever stands first in the queue (R311). -/
def execDescriptorDispatch (c : Fin 16384) (data : Option (List Byte)) (s : State) : Host.Outcome State Fault Refusal := s.upd fun z d =>
  d.dispatchWith z c.val (fun _ => true) data
/-- MATRIX (R132). -/
def execMatrix (c : Fin 16384) (s : State) : Host.Outcome State Fault Refusal := s.upd fun z d => d.dispatchFront z c.val (wantOp 0x01)
/-- WEIGHT_WRITE (R68). -/
def execWeightWrite (c : Fin 16384) (s : State) : Host.Outcome State Fault Refusal := s.upd fun z d => d.dispatchFront z c.val (wantOp 0x02)
/-- BANK_SWAP (R71). -/
def execBankSwap (c : Fin 16384) (s : State) : Host.Outcome State Fault Refusal := s.upd fun z d => d.dispatchFront z c.val (wantOp 0x03)
/-- COPY (R313). -/
def execCopy (c : Fin 16384) (data : Option (List Byte)) (s : State) : Host.Outcome State Fault Refusal := s.upd fun z d =>
  d.dispatchWith z c.val (wantOp 0x04) data
/-- FILL (R314). -/
def execFill (c : Fin 16384) (s : State) : Host.Outcome State Fault Refusal := s.upd fun z d => d.dispatchFront z c.val (wantOp 0x05)
/-- CONVERT (R315). -/
def execConvert (c : Fin 16384) (s : State) : Host.Outcome State Fault Refusal := s.upd fun z d => d.dispatchFront z c.val (wantOp 0x06)
/-- STATS (R316). -/
def execStats (c : Fin 16384) (s : State) : Host.Outcome State Fault Refusal := s.upd fun z d => d.dispatchFront z c.val (wantOp 0x07)
/-- PLAN_LOAD with CANCEL = 0 (R286). -/
def execPlanLoad (c : Fin 16384) (s : State) : Host.Outcome State Fault Refusal := s.upd fun z d =>
  d.dispatchFront z c.val fun q => wantOp 0x08 q && fld q.desc 28 0 1 = 0
/-- PLAN_LOAD with CANCEL = 1 (R286). -/
def execPlanCancel (c : Fin 16384) (s : State) : Host.Outcome State Fault Refusal := s.upd fun z d =>
  d.dispatchFront z c.val fun q => wantOp 0x08 q && fld q.desc 28 0 1 = 1
/-- COURSE_WAIT (R290). -/
def execCourseWait (c : Fin 16384) (s : State) : Host.Outcome State Fault Refusal := s.upd fun z d => d.dispatchFront z c.val (wantOp 0x09)
/-- FENCE (R317). -/
def execFence (c : Fin 16384) (s : State) : Host.Outcome State Fault Refusal := s.upd fun z d => d.dispatchFront z c.val (wantOp 0x0A)
/-- EVENT with OP 0 (R318). -/
def execEventWrite (c : Fin 16384) (s : State) : Host.Outcome State Fault Refusal := s.upd fun z d => d.dispatchFront z c.val (wantEvent 0)
/-- EVENT with OP 1 (R318). -/
def execEventAdd (c : Fin 16384) (s : State) : Host.Outcome State Fault Refusal := s.upd fun z d => d.dispatchFront z c.val (wantEvent 1)
/-- EVENT with OP 2 (R318). -/
def execEventSignal (c : Fin 16384) (s : State) : Host.Outcome State Fault Refusal := s.upd fun z d => d.dispatchFront z c.val (wantEvent 2)
/-- JOB_JOIN (R287). -/
def execJobJoin (c : Fin 16384) (s : State) : Host.Outcome State Fault Refusal := s.upd fun z d => d.dispatchFront z c.val (wantOp 0x0C)
/-- JOB_LEAVE (R288). -/
def execJobLeave (c : Fin 16384) (s : State) : Host.Outcome State Fault Refusal := s.upd fun z d => d.dispatchFront z c.val (wantOp 0x0D)
/-- CHECKPOINT with MODE 0 (R289). -/
def execCheckpointSaved (c : Fin 16384) (s : State) : Host.Outcome State Fault Refusal := s.upd fun z d =>
  d.dispatchFront z c.val fun q => wantOp 0x0E q && fld q.desc 24 0 1 = 0
/-- CHECKPOINT with MODE 1 (R289). -/
def execCheckpointRestored (c : Fin 16384) (s : State) : Host.Outcome State Fault Refusal := s.upd fun z d =>
  d.dispatchFront z c.val fun q => wantOp 0x0E q && fld q.desc 24 0 1 = 1

/-- DESCRIPTOR_COMPLETE: a dispatched descriptor whose work has ended completes, `ns` after the last event, with the activity of the window in progress
that is its own (R311, R392). Fetching may go on (R308). -/
def Dev.complete (z : Fixed) (d : Dev) (c fl : Nat) (acts : Activity) (lost : Bool) : Dev :=
  match d.flight fl with
  | none => d
  | some f =>
    if f.ctx ≠ c || !d.mayComplete f then d
    else
      let d := d.completeFlight z fl acts lost
      if (d.flight fl).isSome then d
      else if lost then d.ctxFault z c 4
      else if d.joined then (d.fetch z c).startItems z else d.fetch z c

/-- DESCRIPTOR_COMPLETE (R311). -/
def execDescriptorComplete (c : Fin 16384) (id ns : Nat) (acts : Activity) (s : State) : Host.Outcome State Fault Refusal := s.upd fun z d =>
  (d.elapse ns).complete z c.val id acts false
/-- COMPLETION_WRITE_REJECTED: the record is lost, CPL_COUNT stays, and the context faults (R328). -/
def execCompletionWriteRejected (c : Fin 16384) (id : Nat) (s : State) : Host.Outcome State Fault Refusal := s.upd fun z d =>
  d.complete z c.val id [] true

/-! ### Host read errors (R328) -/

/-- A host read made for a context ends with an error: it is issued once more, and a second error is lasting. -/
def Dev.readError (z : Fixed) (d : Dev) (c : Nat) (k : HostRead) : Dev :=
  let r := d.ctxRun c
  let lasting := fun (d : Dev) => d.bump F.HOST_CNT_DMA_LASTING 1
  match k with
  | .shadow =>
    if !r.shadowOut then d
    else if r.shadowRetry then ((lasting d).modCtx c fun r => { r with shadowOut := false, shadowRetry := false }).ctxFault z c 1
    else (d.modCtx c fun r => { r with shadowRetry := true }).hostRead z c (enShadow (d.entry c)) 8
  | .descriptors =>
    match r.fetchOut with
    | none => d
    | some (n, k, e) =>
      if r.fetchRetry then ((lasting d).modCtx c fun r => { r with fetchOut := none, fetchRetry := false }).ctxFault z c 2
      else (d.modCtx c fun r => { r with fetchRetry := true }).hostRead z c (enRing e + 64 * (n % enSize e)) (64 * k)
  | .copySource =>
    match d.waitingCopy c with
    | none => d
    | some fl => match d.flight fl with
      | none => d
      | some f =>
        if f.host = 2 then (lasting d).done fl stHostDmaFault
        else (d.modFlight fl fun f => { f with host := 2 }).hostRead z c (hostAddr (fld f.desc 16 0 64)) (fld f.desc 32 0 64)

/-- HOST_READ_ERROR (R328). -/
def execHostReadError (c : Fin 16384) (k : HostRead) (s : State) : Host.Outcome State Fault Refusal := s.upd fun z d => d.readError z c.val k

/-! ### Entries (R303) -/

/-- The number of a requester that has staging registers: the host of the physical function 0, Helam processor k 1 + k. -/
def stageOwner : Requester → Option Nat
  | .fn f => if f.val = 0 then some 0 else none
  | .proc k => some (1 + k.val)
  | .testEngine => none

/-- Reserved fields and the range of RING_LOG2 of an entry (R302). -/
def entryOk (e : Nat) : Bool :=
  fld e 24 5 3 = 0 && fld e 25 4 4 = 0 && fld e 26 6 2 = 0 && fld e 27 2 6 = 0 && fld e 29 3 4 = 0 && fld e 32 0 256 = 0 &&
    decide (6 ≤ enLog2 e) && decide (enLog2 e ≤ 20)

/-- The first cause that refuses an entry, or 0 (R303). -/
def commitResult (z : Fixed) (d : Dev) (c e : Nat) : Nat :=
  let q := c / 8192
  if !entryOk e then 4
  else if !enNoVector e && !vectorOk ((z.owner c).getD (enFunction e)) (enVector e) then 6
  else if z.owner c ≠ some (enFunction e) then 2
  else if z.partOfFn (enFunction e) ≠ enPart e then 3
  else if enPin e && !d.bit (F.CTX_STATUS_PINNED c) && decide (512 ≤ d.get (F.HOST_QS_STATUS_PINNED q)) then 5
  else 0

/-- An entry that keeps the geometry of another: RING_BASE, CPL_BASE, SHADOW_ADDR, RING_LOG2, FUNCTION and PARTITION (R303). -/
def keepGeometry (new old : Nat) : Nat :=
  old % 2 ^ 192 + fld old 24 0 5 * 2 ^ 192 + fld new 25 0 8 * 2 ^ 200 + fld old 26 0 16 * 2 ^ 208 + new / 2 ^ 224 * 2 ^ 224

def Dev.putEntry (d : Dev) (c e : Nat) : Dev := d.puts ((List.range 8).map fun i => (F.CTX_ENTRY c i, bitsAt e (64 * i) 64))

/-- CTX_COMMIT: the staged entry of a requester replaces the entry of a context (R303, R323). -/
def Dev.commit (z : Fixed) (d : Dev) (o c : Nat) : Dev :=
  let e := (List.range 8).foldl (fun a i => a + tget 0 d.host.ctxStage (o * 8 + i) * 2 ^ (64 * i)) 0
  let r := commitResult z d c e
  let status := fun (d : Dev) (r : Nat) => { d with host := { d.host with commitStatus := tset d.host.commitStatus o (r, c) } }
  if r ≠ 0 then status d r
  else
    let off : Bool := d.ctxState c = codeOFF
    let d := status (d.putEntry c (if off then e else keepGeometry e (d.entry c))) (if off then 0 else 1)
    let d := d.showPin c (enPin e || (d.joined && d.crs.joinCtx = c))
    if d.ctxState c = codeON && d.bit (F.CTX_STATUS_PINNED c) && !d.bit (F.CTX_STATUS_RESIDENT c) then (d.takePlace c).proceed z c else d

/-- A write of HOST_CTX_COMMIT (R303, R327). -/
def Dev.ctxCommit (z : Fixed) (d : Dev) (q : Requester) (c : Nat) : Dev :=
  let alive : Bool := match q with
    | .proc k => d.get (F.FW_PROC_STATE_STATE k.val) = codeON
    | _ => true
  match stageOwner q with
  | some o => if alive && d.barOpen q then d.commit z o c else d
  | none => d

/-- CTX_COMMIT (R303). -/
def execCtxCommit (q : Requester) (c : Fin 16384) (s : State) : Host.Outcome State Fault Refusal := s.upd fun z d => d.ctxCommit z q c.val

/-- Whether a requester reaches the registers of a context: a virtual function only those of its own (R295). -/
def reachesCtx (z : Fixed) (q : Requester) (c : Nat) : Bool :=
  match q with
  | .fn f => f.val = 0 || z.owner c = some f.val
  | .proc _ => true
  | .testEngine => false

/-- CTX_RESET (R330). -/
def Dev.ctxReset (d : Dev) (c : Nat) : Dev :=
  if d.ctxState c = codeOFF then d.puts [(F.CTX_PROGRESS_FETCHED c, 0), (F.CTX_PROGRESS_CPL_COUNT c, 0), (F.PWR_CTX_ENERGY c, 0)] else d

/-- CTX_RESET (R330). -/
def execCtxReset (q : Requester) (c : Fin 16384) (s : State) : Host.Outcome State Fault Refusal := s.upd fun z d =>
  if d.barOpen q && reachesCtx z q c.val then d.ctxReset c.val else d

/-! ### BAR4, function resets, power states (R300, R332, R333) -/

/-- The size of a function's BAR4 window in bytes. -/
def Dev.bar4Size (d : Dev) (f : Nat) : Nat := 2 ^ tget 30 d.host.bar4Log2 f

/-- An access through BAR4 that fails at an address is counted where it failed, and in HOST_CNT_BAR4_DENIED where R300 refuses it: outside the function's
partition, in the vault or an assembly area, or unmapped. -/
def Dev.bar4Refuse (z : Fixed) (d : Dev) (part a st : Nat) : Dev :=
  let denied : Bool := ownerOf z d a ≠ some part || st = stVaultDenied || st = stAddressFault
  let d := if st = stMemUncorrectable then d.readBad a else d.denied a st
  if denied then d.bump F.HOST_CNT_BAR4_DENIED 1 else d

/-- BAR4_ACCESS (R300, R333, R336): a read of `len` bytes, or a write of the bytes given. What a
read returns from a wall that has failed, or from a unit that reads cannot correct, is free (log entry 120: DESIGN CHOICE). -/
def Dev.bar4 (z : Fixed) (d : Dev) (f : Fin 64) (off len : Nat) (data : Option (List Byte)) : Dev :=
  let n := match data with
    | some b => b.length
    | none => len
  if d.bar4Size f < off + n then d
  else if !d.barOpen (.fn f) then (if data.isNone then d.emit (.unsupported f) else d)
  else
    let a := d.get (F.HOST_FN_BAR4_BASE f) / d.bar4Size f * d.bar4Size f + off
    let part := z.partOfFn f
    match data with
    | some b => match rangeStatus z d (some part) a n with
      | some (x, st) => d.bar4Refuse z part x st
      | none => d.store none a b
    | none => match readStatus z d (some part) a n with
      | some (x, st) =>
        let d := d.bar4Refuse z part x st
        if st = stMemUnavailable ∨ st = stMemUncorrectable then
          let (b, d) := d.freeBytes n
          d.emit (.bar4Reply f b)
        else d.emit (.bar4Reply f (List.replicate n 0))
      | none => (d.touch a n).emit (.bar4Reply f (d.peeks a n))

/-- BAR4_ACCESS (R300). -/
def execBar4Access (f : Fin 64) (off len : Nat) (data : Option (List Byte)) (s : State) : Host.Outcome State Fault Refusal := s.upd fun z d =>
  d.bar4 z f off len data

/-- The functions that a reset or power state of a function takes in: a physical function takes every one (R332, R333). -/
def functionsOf (f : Nat) : List Nat := if f = 0 then List.range 64 else [f]

/-- Take every context of some functions through STOPPING in abort mode, with no host access (R332). -/
def Dev.silence (z : Fixed) (d : Dev) (fs : List Nat) : Dev :=
  let cs := (d.host.ctx.map (·.1)).filter fun c => match z.owner c with
    | some f => fs.contains f
    | none => false
  cs.foldl (fun d c =>
    let d := (if d.bit (F.CTX_STATUS_PENDING_DB c) then (d.setPending c false).busySync (c / 8192) else d).modCtx c fun r => { r with heldMsg := [] }
    match d.ctxState c with
    | 0 => d.ctxReset c
    | 1 => (d.puts [(F.CTX_STATE_EN c, 0), (F.CTX_STATE_STATE c, codeSTOPPING), (F.CTX_STATE_ENABLE_PENDING c, 0)]).modCtx c fun r =>
        { r with silent := true, abort := true, startDoorbell := false }
    | 3 => (((d.modCtx c fun r => { r with silent := true }).ctxDisable c).ctxAbort c)
    | _ => (d.modCtx c fun r => { r with silent := true, abort := true }).ctxDisable c) d

/-- D3HOT_ENTRY (R333). -/
def execD3hotEntry (f : Fin 64) (s : State) : Host.Outcome State Fault Refusal := s.upd fun z d =>
  if d.host.d3.contains f.val then d
  else
    let d := d.silence z (functionsOf f.val)
    { d with host := { d.host with d3 := d.host.d3 ++ [f.val] } }

/-- D0_RETURN (R333): configuration space, BAR values and the MSI-X table are kept. -/
def execD0Return (f : Fin 64) (s : State) : Host.Outcome State Fault Refusal := s.upd fun _ d =>
  { d with host := { d.host with d3 := d.host.d3.filter (· ≠ f.val) } }

end Sys2Proof.Machine
end

