-- ==== Sys2Proof/Machine/Crypto.lean ====
section
/-! DEFINITION. Sys2Proof/Machine/Crypto.lean: the standard functions that images, service commands and measurements name (R4, R339, R365): SHA-256
(FIPS 180-4) and the verification of ECDSA signatures over P-256 (FIPS 186-5). The spec names the standards; their contents are PRESUMED (log entry 60, unsafe). -/
namespace Sys2Proof.Machine

open Sys2Proof

abbrev Word32 := BitVec 32

/-! ### SHA-256 -/

/-- The largest number below `2 ^ n` whose power `e` is at most `x`, found bit by bit. -/
def rootBits (e x : Nat) : Nat → Nat → Nat
  | 0, r => r
  | n + 1, r => rootBits e x n (if (r + 2 ^ n) ^ e ≤ x then r + 2 ^ n else r)

/-- The first 32 bits of the fraction of root `e` of `x`: how FIPS 180-4 defines its constants. -/
def rootFraction (e x : Nat) : Word32 := BitVec.ofNat 32 (rootBits e (x * 2 ^ (32 * e)) 37 0)

/-- The primes below 312: the first 64. -/
def shaPrimes : List Nat :=
  (List.range 312).filter fun n => 2 ≤ n && [2, 3, 5, 7, 11, 13, 17].all fun q => n % q ≠ 0 || n = q

/-- The exclusive or of rotations to the right. -/
def rotations (x : Word32) (by' : List Nat) : Word32 := by'.foldl (fun a n => a ^^^ x.rotateRight n) 0

/-- What one block has come to: its sixteen latest message words, oldest first, and the working variables a to h. -/
structure ShaRun where
  window : List Word32
  vars : List Word32

/-- One round with constant `k`: it uses the oldest message word and takes the next one into the window. -/
def ShaRun.round (t : ShaRun) (k : Word32) : ShaRun :=
  let w := nth 0 t.window
  let v := nth 0 t.vars
  let choice := (v 4 &&& v 5) ||| (~~~(v 4) &&& v 6)
  let majority := (v 0 &&& (v 1 ||| v 2)) ||| (v 1 &&& v 2)
  let mixed := k + w 0 + v 7 + rotations (v 4) [6, 11, 25] + choice
  { window := t.window.drop 1 ++ [w 0 + (rotations (w 1) [7, 18] ^^^ w 1 >>> 3) + w 9 + (rotations (w 14) [17, 19] ^^^ w 14 >>> 10)],
    vars := (mixed + rotations (v 0) [2, 13, 22] + majority) :: (t.vars.take 7).mapIdx fun i x => if i = 3 then x + mixed else x }

/-- A number of `n` bytes, most significant first. -/
def beNat (l : List Byte) : Nat := l.foldl (fun a b => 256 * a + b.toNat) 0
def beBytes (n w : Nat) : List Byte := (leBytes n w).reverse

/-- The digest of a message, in digest order (R4). -/
def sha256 (m : List Byte) : List Byte :=
  let keys := shaPrimes.map (rootFraction 3)
  let tail := (0x80 : Byte) :: List.replicate ((119 - m.length % 64) % 64) 0 ++ beBytes 8 (8 * m.length)
  let blocks := chunksOf 64 ((m.length + tail.length) / 64) (m ++ tail)
  let digest := blocks.foldl (fun h b =>
      let words := (chunksOf 4 16 b).map fun q => BitVec.ofNat 32 (beNat q)
      List.zipWith (· + ·) h (keys.foldl ShaRun.round ⟨words, h⟩).vars) ((shaPrimes.take 8).map (rootFraction 2))
  digest.flatMap fun w => beBytes 4 w.toNat

/-! ### P-256 -/

def p256P : Nat := 0xffffffff00000001000000000000000000000000ffffffffffffffffffffffff
def p256N : Nat := 0xffffffff00000000ffffffffffffffffbce6faada7179e84f3b9cac2fc632551
def p256B : Nat := 0x5ac635d8aa3a93e7b3ebbd55769886bc651d06b0cc53b0f63bce3c3e27d2604b
def p256Gx : Nat := 0x6b17d1f2e12c4247f8bce6e563a440f277037d812deb33a0f4a13945d898c296
def p256Gy : Nat := 0x4fe342e2fe1a7f9b8ee7eb4a7c0f9e162bce33576b315ececbb6406837bf51f5

/-- A power modulo `m`, by squaring; `fuel` bounds the bits of the exponent. -/
def powMod (m : Nat) : Nat → Nat → Nat → Nat
  | 0, _, _ => 1 % m
  | fuel + 1, b, e => if e = 0 then 1 % m else (if e % 2 = 1 then b else 1) * powMod m fuel (b * b % m) (e / 2) % m

/-- The inverse modulo a prime of at most 256 bits. -/
def invMod (m a : Nat) : Nat := powMod m 256 (a % m) (m - 2)

/-- A point in Jacobian coordinates; Z = 0 is the point at infinity. -/
abbrev JPoint := Nat × Nat × Nat

def subP (a b : Nat) : Nat := (a + p256P - b % p256P) % p256P

def jDouble (t : JPoint) : JPoint :=
  let (x, y, z) := t
  if z = 0 then t else
  let zz := z * z % p256P
  let m := 3 * (subP x zz * ((x + zz) % p256P)) % p256P
  let yy := y * y % p256P
  let s := 4 * x * yy % p256P
  let x' := subP (m * m) (2 * s)
  (x', subP (m * subP s x') (8 * yy * yy), 2 * y * z % p256P)

def jAdd (t u : JPoint) : JPoint :=
  let (x1, y1, z1) := t
  let (x2, y2, z2) := u
  if z1 = 0 then u else if z2 = 0 then t else
  let zz1 := z1 * z1 % p256P
  let zz2 := z2 * z2 % p256P
  let u1 := x1 * zz2 % p256P
  let u2 := x2 * zz1 % p256P
  let s1 := y1 * zz2 * z2 % p256P
  let s2 := y2 * zz1 * z1 % p256P
  if u1 = u2 then (if s1 = s2 then jDouble t else (1, 1, 0))
  else
    let h := subP u2 u1
    let r := subP s2 s1
    let hh := h * h % p256P
    let hhh := hh * h % p256P
    let v := u1 * hh % p256P
    let x := subP (subP (r * r) hhh) (2 * v)
    (x, subP (r * subP v x) (s1 * hhh), z1 * z2 * h % p256P)

/-- A multiple of a point; `fuel` bounds the bits of the scalar. -/
def jMul : Nat → Nat → JPoint → JPoint
  | 0, _, _ => (1, 1, 0)
  | fuel + 1, k, t => if k = 0 then (1, 1, 0) else
    let r := jMul fuel (k / 2) (jDouble t)
    if k % 2 = 1 then jAdd t r else r

/-- Verify a signature (r then s) of a digest by a public key (X then Y), each 64 bytes, coordinates most significant byte first. -/
def ecdsaOk (key digest sig : List Byte) : Bool :=
  let x := beNat (key.take 32)
  let y := beNat (key.drop 32)
  let r := beNat (sig.take 32)
  let s := beNat (sig.drop 32)
  if p256P ≤ x ∨ p256P ≤ y ∨ y * y % p256P ≠ (x * x * x + 3 * p256P * x - 3 * x + p256B) % p256P then false
  else if r = 0 ∨ p256N ≤ r ∨ s = 0 ∨ p256N ≤ s then false
  else
    let w := invMod p256N s
    let (px, _, pz) := jAdd (jMul 256 (beNat digest * w % p256N) (p256Gx, p256Gy, 1)) (jMul 256 (r * w % p256N) (x, y, 1))
    if pz = 0 then false
    else px * invMod p256P (pz * pz) % p256P % p256N = r

end Sys2Proof.Machine
end

