-- ==== Sys2Proof/Machine/Reset.lean ====
section
/-! DEFINITION. Sys2Proof/Machine/Reset.lean: what a burn leaves in the fuses (R357), the repair table that a reset loads (R20), fundamental reset (R7) and
the loss of main power (R429, R430). -/
namespace Sys2Proof.Machine

open Sys2Proof

/-- A meaning that may change the fixed part too. -/
def State.updFixed (s : State) (f : Fixed → Dev → Fixed × Dev) : Host.Outcome State Fault Refusal :=
  let r := f s.z s.d
  .next { s with z := r.1, d := r.2 }

/-! ### Burning (R357) -/

/-- How many of the low `n` bits of a number are set. -/
def popCount : Nat → Nat → Nat
  | 0, _ => 0
  | n + 1, w => w % 2 + popCount n (w / 2)

/-- The elements of a list whose bit is set in a mask. -/
def masked {α : Type} (mask : Nat) (l : List α) : List α := (l.zipIdx.filter fun p => bitsAt mask p.2 1 = 1).map (·.1)

/-- The candidates that await a burn (R409). -/
def Dev.candidates (d : Dev) : List Nat :=
  ((List.range 256).map fun i => d.get (F.HLT_CAND_DATA i)).filter fun w => bitsAt w 7 1 = 1

/-- The public key of a scalar: X then Y, each most significant byte first, as a number with byte 0 lowest (R363). -/
def publicKey (scalar : Nat) : Nat :=
  let (x, y, z) := jMul 256 scalar (p256Gx, p256Gy, 1)
  let i := invMod p256P z
  leNat (beBytes 32 (x * i * i % p256P) ++ beBytes 32 (y * i * i % p256P * i % p256P))

/-- What a burn adds to the fuses where the bits of `mask`, one per bit or entry requested, read as burned. A burned bit stays burned. -/
def Fuses.burn (f : Fuses) (b : Burn) (mask scalar : Nat) (cands : List Nat) : Fuses :=
  match b with
  | .lifeCycle t => { f with lc := f.lc ||| (2 ^ (t - 1) * (mask % 2)) }
  | .revoke i => { f with revoked := f.revoked ||| (2 ^ i * (mask % 2)) }
  | .svn n => { f with svn := f.svn + popCount (n - f.svn) mask }
  | .candidates => { f with repairs := f.repairs ++ masked mask cands, free := f.free - (masked mask cands).length }
  | .rootSlot i h => { f with hash := setNth f.hash i (nth 0 f.hash i ||| (h &&& mask)), valid := f.valid ||| (2 ^ i * bitsAt mask 256 1) }
  | .identity => { f with scalar := f.scalar ||| (scalar &&& mask), key := f.key ||| (publicKey scalar &&& (mask / 2 ^ 256)) }

/-- A burn that a reset or a loss of power interrupts leaves each requested bit burned or not: free values (R357). -/
def cutBurn (z : Fixed) (d : Dev) : Fixed × Dev :=
  match d.fw.burns with
  | [] => (z, d)
  | b :: _ =>
    let word := fun (n : Nat) => leNat ((List.range 16).flatMap fun i => leBytes 8 (Config.freeWord (d.free + n + i)).toNat)
    ({ z with fuse := z.fuse.burn b.1 (word 0) (word 16 % 2 ^ 256) d.candidates }, { d with free := d.free + 32 })

/-! ### The repair table (R18 to R20, R201, R203, R409) -/

/-- Load one burned repair entry. -/
def Dev.loadRepair (d : Dev) (w : Nat) : Dev :=
  let die := bitsAt w 4 3
  let unit := bitsAt w 8 8
  let elem := bitsAt w 16 8
  let col := bitsAt w 24 10
  let spare := bitsAt w 34 2
  let n := 64 * die + unit
  match bitsAt w 0 4 with
  | 1 =>
    let d := { d with hlt := { d.hlt with retiredCores := (die * 66 + d.get (F.CORE_ID_PHYSICAL n)) :: d.hlt.retiredCores } }
    d.puts [(F.CORE_ID_PHYSICAL n, 64 + spare), (F.CORE_ID_SPARE n, 1)]
  | 2 => match (List.range 64).find? fun m => d.get (F.CIM_MAP_PHYSICAL n m) = elem with
    | some m =>
      let s := 64 + spare
      let d := d.puts ((if 64 ≤ elem then [(F.CIM_MAP_ASSIGNED n elem, 0), (F.CIM_MAP_LOGICAL n elem, 0)] else []) ++
        [(F.CIM_MAP_PHYSICAL n m, s), (F.CIM_MAP_STREAM_CAP n m, 1), (F.CIM_MAP_ASSIGNED n s, 1), (F.CIM_MAP_LOGICAL n s, m)])
      let d := { d with hlt := { d.hlt with retiredMacros := (n * 68 + elem) :: d.hlt.retiredMacros } }
      d.put (F.HLT_CORE_SLICE_SPARES_FREE n) (d.unassigned n).length
    | none => d
  | 3 => d.puts [(colCOL n elem spare, col), (colVALID n elem spare, 1), (⟨colWord n elem, 16 * spare + 10, 1, 0⟩, 1)]
  | 4 => d.puts [(colCOL (256 + die) unit spare, col), (colVALID (256 + die) unit spare, 1), (⟨colWord (256 + die) unit, 16 * spare + 11, 1, 0⟩, 1)]
  | 5 =>
    let old := d.homeBank (256 + die) unit
    let d := if old < 192 then d else
      ({ d with pool := { d.pool with retired := ((256 + die) * 4 + (old - 192)) :: d.pool.retired } }).put (F.POOL_DP_SPARE_ASSIGNED die (old - 192)) 0
    d.puts [(F.POOL_DP_SPARE_BANK_SERVED die spare, unit), (F.POOL_DP_SPARE_ASSIGNED die spare, 1), (F.POOL_DP_SPARE_FUSED die spare, 1)]
  | _ => d

/-- Load the repair table from the fuses. -/
def Dev.loadRepairs (d : Dev) (l : List Nat) : Dev :=
  let d := l.foldl Dev.loadRepair d
  if l = [] then d
  else (List.range 4).foldl (fun d die => (d.relink die).puts [(F.HLT_DIE_SPARE_CORES die, (d.freeCores die).length),
    (F.HLT_DIE_SPARE_BANKS die, d.unassignedBanks die)]) d

/-! ### Fundamental reset and loss of power -/

/-- The fields that the auxiliary domain keeps (R7). -/
def keptFields : List Fld := [F.THM_TRIP_TRIPPED, F.THM_TRIP_SOURCE, F.THM_TRIP_SENSOR, F.THM_TRIP_READING_C]

/-- Fundamental reset (R7, R346): registers at their reset values, the set-up lock open, the fuse shadow and the repair table loaded; the image store, the
firmware and all that units hold are lost. The auxiliary domain, the flash and the SRAM arrays keep what they hold; stacks are powered down and lose it (R215). -/
def fundamentalReset (z : Fixed) (d : Dev) : Fixed × Dev :=
  let (z, d) := cutBurn z d
  let aux : ModS := { d.aux with served := false, configOpen := false, receiver := none, events := [], levels := [] }
  let e : Dev := { mem := d.mem, cells := d.cells, out := d.out, now := d.now, aux := aux, flash := d.flash, free := d.free + 4,
                   regs := RegFile.puts [] (z.fuse.shadow ++ nonceFields d.free ++ keptFields.map fun f => (f, d.get f)) }
  ({ z with setup := {} }, (e.loseContents (List.range 24)).loadRepairs z.fuse.repairs)

/-- Main power is lost for a cause (R429, R430): the module acts as if PERST_N had been asserted, the rails are off and what the module held is gone; nothing is listed in the arrays, which boot clears
before anything reads them (R210, R235, R236). -/
def mainPowerLost (z : Fixed) (d : Dev) (cause : Nat) (fault : Bool) : Fixed × Dev :=
  let (z, d) := fundamentalReset z d
  (z, { d with mem := [], cells := [], aux := { d.aux with rails := .off, cause := cause, fault := d.aux.fault || fault, perst := true } })

/-! Codes of the power-loss cause (R439). -/
def causePwrEn : Nat := 2
def causeUndervoltage : Nat := 3
def causeOvervoltage : Nat := 4
def causeOvercurrent : Nat := 5
def causeThermal : Nat := 6
def causeStage : Nat := 7

end Sys2Proof.Machine
end

