-- ==== Sys2Proof/Machine/Power.lean ====
section
/-! DEFINITION. Sys2Proof/Machine/Power.lean: operating points, the cap and its two loops, parking, droop, energy and thermal control (R369 to R394), and the
temperatures of the stacks (R232, R233). -/
namespace Sys2Proof.Machine

open Sys2Proof

/-- The power hardware runs while the internal rails are good. -/
def Dev.powered (d : Dev) : Bool := d.aux.rails = .good

/-- Helam processor 4 governs while it is ON (R352). -/
def Dev.governed (d : Dev) : Bool := d.get (F.FW_PROC_STATE_STATE 4) = codeON

/-- Boot has reached READY (R335). -/
def stageReady : Nat := 0xA
def Dev.isReady (d : Dev) : Bool := d.get F.FW_MBOX_STATUS_STAGE = stageReady

/-! ### Operating points (R370, R371) -/

/-- The point a die should run at: from READY the lowest of REQ_OP, CAP_OP and THERM_OP, before it point 0. -/
def Dev.wantedOp (d : Dev) (die : Nat) : Nat :=
  if d.isReady then min (d.get (F.PWR_DIE_REQ_REQ_OP die)) (min (d.get (F.PWR_DIE_OP_CAP_OP die)) (d.get (F.PWR_DIE_OP_THERM_OP die))) else 0

/-- Something throttles the module now (R389). -/
def Dev.throttling (d : Dev) : Bool :=
  (List.range 4).any (fun die => decide (d.get (F.PWR_DIE_OP_OP die) < d.get (F.PWR_DIE_REQ_REQ_OP die)) ||
    decide (d.get (F.PWR_DIE_OP_DUTY die) < 16)) ||
  (List.range 256).any fun n => bitsAt (d.get (F.CORE_STATE_HOLD_CAUSE n)) holdPower 1 = 1 || bitsAt (d.get (F.CORE_STATE_HOLD_CAUSE n)) holdThermal 1 = 1

def Dev.noteThrottle (d : Dev) : Dev :=
  if d.pwr.throttled || !d.throttling then d else { d with pwr := { d.pwr with throttled := true } }

/-- A change of running point begins when none is under way: a raise ramps and then switches, a fall switches and then ramps (R371). -/
def Dev.opSync (d : Dev) (die : Nat) : Dev :=
  let want := d.wantedOp die
  let now := d.get (F.PWR_DIE_OP_OP die)
  if !d.governed || d.bit (F.PWR_DIE_OP_TRANSITION die) || want = now then d
  else
    let d := d.puts [(F.PWR_DIE_OP_TRANSITION die, 1), (F.PWR_DIE_OP_VOLT_MV die, d.get (F.PWR_OPP_VOLT_MV want))]
    let d := { d with pwr := { d.pwr with target := tset d.pwr.target die want } }
    (if want < now then (d.put (F.PWR_DIE_OP_OP die) want).bump (F.PWR_DIE_CNT_OP_CHANGES die) 1 else d).noteThrottle

def Dev.opSyncAll (d : Dev) : Dev := (List.range 4).foldl Dev.opSync d

/-- The ramp and the switch of a die end; a newer running point is taken up (R371). -/
def Dev.rampDone (d : Dev) (die : Nat) : Dev :=
  if !d.bit (F.PWR_DIE_OP_TRANSITION die) then d
  else
    let t := tget 0 d.pwr.target die
    let now := d.get (F.PWR_DIE_OP_OP die)
    let d := if t = now then d else (d.put (F.PWR_DIE_OP_OP die) t).bump (F.PWR_DIE_CNT_OP_CHANGES die) 1
    (({ d with pwr := { d.pwr with target := terase d.pwr.target die } }).put (F.PWR_DIE_OP_TRANSITION die) 0).opSync die

/-- OP_RAMP_DONE (R371). -/
def execOpRampDone (die : Fin 4) (s : State) : Host.Outcome State Fault Refusal := s.upd fun _ d =>
  if d.powered then d.rampDone die.val else d

/-- A write of REQ_OP (R370). -/
def Dev.reqOp (d : Dev) (die v : Nat) : Dev := ((d.put (F.PWR_DIE_REQ_REQ_OP die) v).opSync die).noteThrottle

/-- REQ_OP_WRITE (R370). -/
def execReqOpWrite (q : Requester) (die : Fin 4) (v : BitVec 32) (s : State) : Host.Outcome State Fault Refusal := s.upd fun _ d =>
  if d.barOpen q && fullAccess q then d.reqOp die.val v.toNat else d

/-! ### The cap (R373, R380) -/

def Dev.cap (d : Dev) : Nat := d.get F.PWR_CAP_EFFECTIVE_CAP_W

/-- Fifty times the cap tolerance in W (R380). -/
def Dev.tol50 (d : Dev) : Nat := max 500 d.cap

/-- The effective cap follows the lower cap, while processor 4 is there to change it (R352, R373). -/
def Dev.capSync (d : Dev) : Dev :=
  if !d.governed then d
  else
    let c := min (d.get F.PWR_CAP_CAP_W) (d.get F.PWR_CAP_SIDEBAND_CAP_W)
    d.puts [(F.PWR_CAP_EFFECTIVE_CAP_W, c), (F.PWR_CAP_EFFECTIVE_TOL_W, max 10 (c / 50))]

/-- Whether a cap is accepted: 300 W to the fused ceiling (R373). -/
def Dev.capOk (d : Dev) (v : Nat) : Bool := decide (300 ≤ v) && decide (v ≤ d.get F.FUSE_SKU_CEILING_W)

/-- A write of PWR_CAP. -/
def Dev.capWrite (d : Dev) (v : Nat) : Dev :=
  let w := v % 2 ^ 11
  if d.capOk w then (d.put F.PWR_CAP_CAP_W w).capSync else d.put F.PWR_STATUS_CAP_REFUSED 1

/-- CAP_WRITE (R373). -/
def execCapWrite (q : Requester) (v : BitVec 32) (s : State) : Host.Outcome State Fault Refusal := s.upd fun _ d =>
  match q with
  | .fn f => if d.barOpen q && f.val = 0 then d.capWrite v.toNat else d
  | _ => d

/-! ### The duty loop (R375) -/

/-- The end of a period with a mean power in mW. -/
def Dev.dutyStep (d : Dev) (mean : Nat) : Dev :=
  (List.range 4).foldl (fun d die =>
    let k := d.get (F.PWR_DIE_OP_DUTY die)
    if 1000 * d.cap < mean then d.put (F.PWR_DIE_OP_DUTY die) (max 2 (k - 1))
    else if mean * (k + 1) ≤ 1000 * d.cap * k then d.put (F.PWR_DIE_OP_DUTY die) (min 16 (k + 1))
    else d) d

/-- DUTY_PERIOD_END: the mean of the period in mW, and the cycles that the duty withheld on each die (R375). -/
def execDutyPeriodEnd (mean : Nat) (lost : List (Fin 4 × Nat)) (s : State) : Host.Outcome State Fault Refusal := s.upd fun _ d =>
  if !d.powered then d
  else ((lost.foldl (fun d x => d.bump (F.PWR_DIE_CNT_DUTY_LOST x.1.val) x.2) d).dutyStep mean).noteThrottle

/-! ### Parking (R378) -/

/-- Units of a die: n. -/
def Dev.parkUnits (d : Dev) : Nat := 64 / 2 ^ d.pwr.unit

def Dev.parkCount (d : Dev) (die : Nat) : Nat := d.get (F.PWR_DIE_PARK_COUNT die)

/-- CAP_BELOW_FLOOR follows the park counts (R379); a change of PARK_UNIT applies when every count is 0. -/
def Dev.parkSync (d : Dev) : Dev :=
  let none_ : Bool := (List.range 4).all fun die => decide (d.parkCount die = 0)
  let d := if none_ && decide (d.get F.PWR_GOV_CFG_PARK_UNIT ≤ 4) then { d with pwr := { d.pwr with unit := d.get F.PWR_GOV_CFG_PARK_UNIT } } else d
  d.put F.PWR_STATUS_CAP_BELOW_FLOOR (b01 !none_)

/-- The first unit parked in course `c`, and whether a unit is parked. -/
def parkFirst (rotate : Bool) (n p c : Nat) : Nat := if rotate then c * p % n else n - p
def isParked (n p first u : Nat) : Bool := decide ((u + n - first % n) % n < p)

/-- PARKING_APPLY: the park counts take effect for course `c` (R26, R378). -/
def Dev.applyParking (d : Dev) (c : Nat) : Dev :=
  (List.range 4).foldl (fun d die =>
    let n := d.parkUnits
    let p := d.parkCount die
    let first := parkFirst (d.bit F.PWR_GOV_CFG_ROTATE) n p c
    let d := (d.put (F.PWR_DIE_PARK_FIRST die) first).bump (F.PWR_DIE_CNT_PARKED die) p
    (List.range 64).foldl (fun d i =>
      let on := isParked n p first (i / 2 ^ d.pwr.unit)
      if on = (bitsAt (d.get (F.CORE_STATE_HOLD_CAUSE (64 * die + i))) holdPower 1 = 1 : Bool) then d
      else d.setHold (coreWord (64 * die + i)) holdPower on) d) d

/-! ### The firmware loop (R376, R377, R379, R382) -/

def Dev.uniform (d : Dev) : Bool := d.get F.PWR_GOV_CFG_POLICY = 0

/-- The die of a list with the largest value, the lowest number winning a tie. -/
def argMax (f : Nat → Nat) (l : List Nat) : Option Nat :=
  l.foldl (fun a x => match a with
    | none => some x
    | some b => if f b < f x then some x else some b) none

/-- The die with the smallest value, the lowest number winning a tie. -/
def argMin (f : Nat → Nat) (l : List Nat) : Option Nat :=
  l.foldl (fun a x => match a with
    | none => some x
    | some b => if f x < f b then some x else some b) none

def Dev.estimate (d : Dev) (die : Nat) : Nat := d.get (F.PWR_DIE_POWER_EST_W die)

/-- The dies an action concerns: all of a list under UNIFORM, the one chosen under PER_DIE. -/
def Dev.byPolicy (d : Dev) (pick : List Nat → Option Nat) (l : List Nat) : List Nat := if d.uniform then l else (pick l).toList

/-- Change CAP_OP of a die, and with it DROOP_LIMITED, which clears when CAP_OP returns to 7 (R382). -/
def Dev.setCapOp (d : Dev) (die v : Nat) : Dev :=
  let d := d.put (F.PWR_DIE_OP_CAP_OP die) v
  let d := if v = 7 then { d with pwr := { d.pwr with droopDies := d.pwr.droopDies.filter (· ≠ die) } } else d
  (d.put F.PWR_STATUS_DROOP_LIMITED (b01 (decide (d.pwr.droopDies ≠ [])))).opSync die

/-- The loop has acted: its windows count anew. -/
def Dev.acted (d : Dev) : Dev := { d with pwr := { d.pwr with low := 0, quiet := 0 } }

/-- R376: lower a point; else, with every die at point 0, park; else hold. -/
def Dev.capLower (d : Dev) : Dev :=
  let dies := List.range 4
  let above := dies.filter fun die => decide (0 < d.get (F.PWR_DIE_OP_OP die))
  if above ≠ [] then
    ((d.byPolicy (argMax d.estimate) above).foldl (fun d die => d.setCapOp die (d.get (F.PWR_DIE_OP_CAP_OP die) - 1)) d).acted
  else
    let room := dies.filter fun die => decide (d.parkCount die < d.parkUnits - 1)
    if room = [] then d
    else ((d.byPolicy (argMax d.estimate) room).foldl (fun d die => d.put (F.PWR_DIE_PARK_COUNT die) (d.parkCount die + 1)) d).parkSync.acted

/-- RAISE_WINDOWS; 0 acts as 1. -/
def Dev.raiseWindows (d : Dev) : Nat := max 1 (d.get F.PWR_GOV_CFG_RAISE_WINDOWS)

/-- R377: unpark; else raise a point. -/
def Dev.capRelax (d : Dev) : Dev :=
  let dies := List.range 4
  let parked := dies.filter fun die => decide (0 < d.parkCount die)
  if parked ≠ [] then
    ((d.byPolicy (argMax d.parkCount) parked).foldl (fun d die => d.put (F.PWR_DIE_PARK_COUNT die) (d.parkCount die - 1)) d).parkSync.acted
  else
    let ok := dies.filter fun die => decide (d.get (F.PWR_DIE_OP_CAP_OP die) < 7) &&
      (!d.pwr.droopDies.contains die || decide (d.raiseWindows ≤ tget 0 d.pwr.calm die))
    let up := d.byPolicy (argMin d.estimate) ok
    if up = [] then d else (up.foldl (fun d die => d.setCapOp die (d.get (F.PWR_DIE_OP_CAP_OP die) + 1)) d).acted

/-- A trace record of a processor (R354, R355): written where its group is enabled; its event and arguments are free values (log entry 4: DESIGN CHOICE, safe). -/
def Dev.trace (d : Dev) (proc group : Nat) : Dev :=
  if bitsAt (d.get (F.FW_TRACE_MASK_GROUPS proc)) group 1 = 0 then d
  else
    let (e, d) := d.drawFree
    let (a0, d) := d.drawFree
    let (a1, d) := d.drawFree
    d.logCommit proc 4 (group * 4096 + e.toNat % 4096) a0.toNat a1.toNat

/-- Set a flag of PWR_STATUS, with its trace record where it changes (R379). -/
def Dev.capFlag (d : Dev) (f : Fld) (on : Bool) : Dev := if d.bit f = on then d else (d.put f (b01 on)).trace 4 10

/-- R379: CAP_UNATTAINABLE at the end of a window of `eIn` µJ. -/
def Dev.capFloor (d : Dev) (eIn : Nat) : Dev :=
  let dies := List.range 4
  let atFloor := dies.all fun die => decide (d.get (F.PWR_DIE_OP_OP die) = 0) && decide (d.parkCount die = d.parkUnits - 1)
  if eIn ≤ 1000 * d.cap then d.capFlag F.PWR_STATUS_CAP_UNATTAINABLE false
  else if atFloor && decide (2 ≤ d.pwr.floor) && decide (1000 * (50 * d.cap + d.tol50) < 50 * eIn) then d.capFlag F.PWR_STATUS_CAP_UNATTAINABLE true
  else d

/-- R382: the stretched cycles of a die in a window. -/
def Dev.droopWindow (d : Dev) (die cycles stretched : Nat) : Dev :=
  let many : Bool := decide (cycles < 100 * stretched)
  let few : Bool := decide (1000 * stretched < cycles)
  let n := if many then tget 0 d.pwr.droopy die + 1 else 0
  let d := { d with pwr := { d.pwr with droopy := tset d.pwr.droopy die n, calm := tset d.pwr.calm die (if few then tget 0 d.pwr.calm die + 1 else 0) } }
  if n < 2 ∨ d.get (F.PWR_DIE_OP_CAP_OP die) = 0 then d
  else
    let d := { d with pwr := { d.pwr with droopy := tset d.pwr.droopy die 0,
                                          droopDies := if d.pwr.droopDies.contains die then d.pwr.droopDies else d.pwr.droopDies ++ [die] } }
    d.setCapOp die (d.get (F.PWR_DIE_OP_CAP_OP die) - 1)

/-- What processor 4 does at the end of a window of `eIn` µJ (R376, R377, R379). -/
def Dev.firmwareLoop (d : Dev) (eIn : Nat) : Dev :=
  let duty := fun die => d.get (F.PWR_DIE_OP_DUTY die)
  let low : Bool := (List.range 4).any fun die => decide (duty die < 12)
  let full : Bool := (List.range 4).all fun die => decide (duty die = 16)
  let atTwo : Bool := (List.range 4).all fun die => decide (duty die = 2)
  let quiet : Bool := full && decide (50 * eIn + 2000 * d.tol50 ≤ 50000 * d.cap)
  let d := { d with pwr := { d.pwr with low := if low then d.pwr.low + 1 else 0, quiet := if quiet then d.pwr.quiet + 1 else 0,
                                        floor := if atTwo then d.pwr.floor + 1 else 0 } }
  if !d.governed then d
  else
    let below := d.bit F.PWR_STATUS_CAP_BELOW_FLOOR
    let d := d.capFloor eIn
    let d := if 2 ≤ d.pwr.low then d.capLower else if d.raiseWindows ≤ d.pwr.quiet then d.capRelax else d
    if d.bit F.PWR_STATUS_CAP_BELOW_FLOOR = below then d else d.trace 4 10

/-! ### Energy (R390, R391) -/

def activityOf (a : CtxActivity) : Activity := [(a.die, a.kind, a.units)]

/-- Dies of a partition (R297). -/
def Fixed.diesOf (z : Fixed) : Nat := match z.layout with
  | 0 => 4
  | 1 => 2
  | _ => 1

/-- The factor F of a window, in the range 0.80 to 1.25, as a quotient (R391). -/
def windowFactor (eIn eIdle total : Nat) : Nat × Nat :=
  let n := (eIn - eIdle) * microJoule
  if total = 0 then (1, 1)
  else if 5 * n < 4 * total then (4, 5)
  else if 5 * total < 4 * n then (5, 4)
  else (n, total)

/-- Add energy to a context's counter, carrying the fraction of a µJ. -/
def Dev.ctxEnergy (d : Dev) (c e : Nat) : Dev :=
  let t := tget 0 d.pwr.ctxFrac c + e
  { d with pwr := { d.pwr with ctxFrac := tset d.pwr.ctxFrac c (t % microJoule) } }.bump (F.PWR_CTX_ENERGY c) (t / microJoule)

/-- Add energy, which may be negative, to a partition's counter. -/
def Dev.partEnergy (d : Dev) (p : Nat) (e : Int) : Dev :=
  let t := tget 0 d.pwr.partFrac p + e
  let u : Int := microJoule
  let d := { d with pwr := { d.pwr with partFrac := tset d.pwr.partFrac p (t % u) } }
  d.put (F.PWR_PART_ENERGY p) (((d.get (F.PWR_PART_ENERGY p) : Int) + t / u) % (2 ^ 64 : Nat)).toNat

/-- The end of a window: `eIn` and `eIdle` in µJ, the activity of contexts, and that of no context. -/
def Dev.settle (z : Fixed) (d : Dev) (eIn eIdle : Nat) (acts : List CtxActivity) (other : Activity) : Dev :=
  let energyOf := fun (a : CtxActivity) => d.actEnergy (activityOf a)
  let total := nsum (acts.map energyOf)
  let f := windowFactor eIn eIdle total
  let scaled := fun (e : Nat) => e * f.1 / f.2
  let parts := List.range z.parts
  let partOf := fun (a : CtxActivity) => enPart (d.entry a.ctx.val)
  let ofPart := fun (p : Nat) => nsum ((acts.filter fun a => partOf a = p).map energyOf)
  let ofDie := fun (die : Nat) => nsum ((acts.filter fun a => a.die.val = die).map energyOf) + d.actEnergy (other.filter fun x => x.1.val = die)
  let watts := (List.range 4).map fun die => (F.PWR_DIE_POWER_EST_W die, satField 12 ((ofDie die / microJoule + eIdle / 4) / 1000))
  let rest : Int := ((eIn * microJoule : Nat) : Int) - (scaled total : Nat)
  let d := acts.foldl (fun e a => e.ctxEnergy a.ctx.val (scaled (energyOf a))) d
  let d := acts.foldl (fun e a => match a.flight with
    | some fl => e.modFlight fl fun x => { x with energy := x.energy + scaled (energyOf a) }
    | none => e) d
  let d := parts.foldl (fun e p => e.partEnergy p ((scaled (ofPart p) : Nat) + rest * (z.diesOf : Int) / 4)) d
  let d := { d with pwr := { d.pwr with fNum := f.1, fDen := f.2 } }
  ((d.bump F.PWR_MODULE_ENERGY eIn).puts watts).put F.PWR_STATUS_POWER_W (satField 12 (eIn / 1000))

/-- POWER_WINDOW_END: measured input energy and idle estimate in µJ, the activity of the window, and for each die its cycles and how many were stretched
(R376 to R382, R391). -/
def execPowerWindowEnd (eIn eIdle : Nat) (acts : List CtxActivity) (other : Activity) (stretch : List (Fin 4 × Nat × Nat)) (s : State) :
    Host.Outcome State Fault Refusal := s.upd fun z d =>
  if !d.powered then d
  else
    let d := d.settle z eIn eIdle acts other
    let d := if 1000 * (50 * d.cap + d.tol50) < 50 * eIn then d.bump F.PWR_CNT_OVER_WINDOWS 1 else d
    let d := if d.governed then stretch.foldl (fun d x => d.droopWindow x.1.val x.2.1 x.2.2) d else d
    (d.firmwareLoop eIn).noteThrottle

/-! ### Droop (R381) -/

/-- DROOP_TRIP (R381). -/
def execDroopTrip (die : Fin 4) (s : State) : Host.Outcome State Fault Refusal := s.upd fun _ d =>
  if !d.powered || d.pwr.stretched.contains die.val then d
  else { d with pwr := { d.pwr with stretched := d.pwr.stretched ++ [die.val] } }.bump (F.PWR_DIE_CNT_DROOP die.val) 1

/-- DROOP_RECOVER: after at least 32 stretched cycles the clock period returns (R381). -/
def execDroopRecover (die : Fin 4) (cycles : Nat) (s : State) : Host.Outcome State Fault Refusal := s.upd fun _ d =>
  if !d.powered || !d.pwr.stretched.contains die.val || decide (cycles < 32) then d
  else { d with pwr := { d.pwr with stretched := d.pwr.stretched.filter (· ≠ die.val) } }.bump (F.PWR_DIE_CNT_STRETCH die.val) cycles

/-! ### Thermal control (R384 to R388) -/

/-- A throttle limit as it acts: 70 to 100 (THM_LIMITS). -/
def clampLimit (v : Nat) : Nat := max 70 (min 100 v)
def Dev.coreThrot (d : Dev) : Nat := clampLimit (d.get F.THM_LIMITS_CORE_THROT_C)
def Dev.stackThrot (d : Dev) : Nat := clampLimit (d.get F.THM_LIMITS_STACK_THROT_C)

/-- Core and hotspot readings of a die, and those of its six stacks. -/
def Dev.coreReadings (d : Dev) (die : Nat) : List Nat :=
  ((List.range 64).map fun i => d.get (F.THM_CORE_TEMP_TEMP_C (64 * die + i))) ++ (List.range 4).map fun i => tget 0 d.pwr.spots (4 * die + i)
def Dev.stackReadings (d : Dev) (die : Nat) : List Nat := (List.range 6).map fun i => d.get (F.MEM_STACK_TEMP_TEMP_C (6 * die + i))

def maxOf (l : List Nat) : Nat := l.foldl max 0

/-- Show the readings of the dies; a reading warmer than HYST_C below its limit starts the 100 ms anew (R385). -/
def Dev.showDies (d : Dev) : Dev :=
  (List.range 4).foldl (fun d die =>
    let cs := d.coreReadings die
    let ss := d.stackReadings die
    let d := d.puts [(F.THM_DIE_HOTSPOT_C die, maxOf ((List.range 4).map fun i => tget 0 d.pwr.spots (4 * die + i))),
      (F.THM_DIE_DIE_C die, max (maxOf cs) (maxOf ss))]
    let hyst := d.get F.THM_LIMITS2_HYST_C
    if d.coreThrot < maxOf cs + hyst ∨ d.stackThrot < maxOf ss + hyst then { d with pwr := { d.pwr with cool := tset d.pwr.cool die 0 } } else d) d

/-- Change THERM_OP of a die. -/
def Dev.setThermOp (d : Dev) (die v : Nat) : Dev :=
  let d := d.puts [(F.PWR_DIE_OP_THERM_OP die, v), (F.THM_DIE_THERM_OP die, v)]
  (d.put F.PWR_STATUS_THERMAL_LIMITED (b01 ((List.range 4).any fun i => decide (d.get (F.PWR_DIE_OP_THERM_OP i) < 7)))).opSync die

/-- What the thermal loop does with a die (R385). -/
def Dev.thermDie (d : Dev) (die : Nat) : Dev :=
  let t := d.get (F.PWR_DIE_OP_THERM_OP die)
  let n := tget 0 d.pwr.cool die + 1
  let d := { d with pwr := { d.pwr with cool := tset d.pwr.cool die n } }
  if d.coreThrot ≤ maxOf (d.coreReadings die) ∨ d.stackThrot ≤ maxOf (d.stackReadings die) then
    let d := d.put (F.THM_DIE_THROTTLING die) 1
    if t = 0 then d else (d.setThermOp die (t - 1)).bump F.THM_CNT_THROTTLE 1
  else if 10 ≤ n then
    let d := if t < 7 then d.setThermOp die (t + 1) else d
    if d.get (F.PWR_DIE_OP_THERM_OP die) = 7 then d.put (F.THM_DIE_THROTTLING die) 0 else d
  else d

/-- THERMAL_LOOP: every 10 ms, while Helam processor 4 is ON (R385). -/
def execThermalLoop (s : State) : Host.Outcome State Fault Refusal := s.upd fun _ d =>
  if !d.powered || !d.governed then d else ((List.range 4).foldl Dev.thermDie d).noteThrottle

/-- The reading of a core's junction (R384, R386). -/
def Dev.coreTemp (d : Dev) (n t : Nat) : Dev :=
  let held := d.bit (F.THM_CORE_TEMP_HELD n)
  let d := d.puts [(F.THM_CORE_TEMP_TEMP_C n, t), (F.THM_CORE_TEMP_MAX_C n, max t (d.get (F.THM_CORE_TEMP_MAX_C n))),
    (F.THM_CORE_TEMP_HOT n, b01 (decide (d.coreThrot ≤ t)))]
  let die := n / 64
  let limit := d.get F.THM_LIMITS_CORE_HOLD_C
  if !held && decide (limit ≤ t) then
    ((d.setHold (coreWord n) holdThermal true).puts [(F.THM_CORE_TEMP_HELD n, 1), (F.THM_DIE_HELD die, d.get (F.THM_DIE_HELD die) + 1)]).bump F.THM_CNT_HOLD 1
  else if held && decide (t + 5 ≤ limit) then
    (d.setHold (coreWord n) holdThermal false).puts [(F.THM_CORE_TEMP_HELD n, 0), (F.THM_DIE_HELD die, d.get (F.THM_DIE_HELD die) - 1)]
  else d

/-- A read of a sensor that can trip the module: at or above its limit on two consecutive reads (R387). The first trip of a step stands. -/
def Dev.tripRead (a : Dev × Option (Nat × Nat × Nat)) (id reading limit source sensor : Nat) : Dev × Option (Nat × Nat × Nat) :=
  let d := a.1
  let past : Bool := decide (limit ≤ reading)
  let before := d.pwr.hot.contains id
  let hot := if past then (if before then d.pwr.hot else id :: d.pwr.hot) else d.pwr.hot.filter (· ≠ id)
  ({ d with pwr := { d.pwr with hot := hot } }, if a.2.isNone && past && before then some (source, sensor, reading) else a.2)

/-- The thermal trip: its source, sensor and reading are kept, THERMTRIP_N is asserted and the main rails are removed (R387, R430). -/
def thermalTrip (z : Fixed) (d : Dev) (t : Option (Nat × Nat × Nat)) : Fixed × Dev :=
  match t with
  | none => (z, d)
  | some (source, sensor, reading) =>
    let d := d.puts [(F.THM_TRIP_TRIPPED, 1), (F.THM_TRIP_SOURCE, source), (F.THM_TRIP_SENSOR, sensor), (F.THM_TRIP_READING_C, reading)]
    mainPowerLost z { d with aux := { d.aux with thermTrip := true } } causeThermal true

/-- The readings of a read of the sensors. -/
def Dev.thermalRead (d : Dev) (t : ThermalRead) : Dev × Option (Nat × Nat × Nat) :=
  let trip := d.get F.THM_LIMITS_TRIP_C
  let d := t.cores.foldl (fun d x => d.coreTemp x.1.val x.2.toNat) d
  let d := { d with pwr := { d.pwr with spots := t.hotspots.foldl (fun (l : Table Nat) (x : Fin 16 × BitVec 8) => tset l x.1.val x.2.toNat) d.pwr.spots } }
  let d := if t.ioDie = [] then d else d.put F.THM_BOARD_IO_DIE_C (maxOf (t.ioDie.map fun x => x.2.toNat))
  let d := match t.board with
    | some b => d.puts [(F.THM_BOARD_INLET_C, b.1.toNat), (F.THM_BOARD_STAGE_C, b.2.toNat),
        (F.THM_BOARD_INLET_HIGH, b01 (decide (d.get F.THM_LIMITS2_INLET_WARN_C < b.1.toNat)))]
    | none => d
  let a := t.cores.foldl (fun a x => Dev.tripRead a (256 + x.1.val) x.2.toNat trip 1 x.1.val) (d.showDies.noteThrottle, none)
  let a := t.hotspots.foldl (fun a x => Dev.tripRead a x.1.val x.2.toNat trip 1 x.1.val) a
  t.ioDie.foldl (fun a x => Dev.tripRead a (16 + x.1.val) x.2.toNat trip 3 x.1.val) a

/-- THERMAL_SENSOR_READ (R384, R386 to R388). -/
def execThermalSensorRead (t : ThermalRead) (s : State) : Host.Outcome State Fault Refusal := s.updFixed fun z d =>
  if !d.powered then (z, d)
  else
    let r := d.thermalRead t
    thermalTrip z r.1 r.2

/-- The reading of a stack: shown, the refresh rate follows it (R232, R233), and a trip limit counts (R387). -/
def Dev.stackTemp (d : Dev) (st t : Nat) : Dev × Option (Nat × Nat × Nat) :=
  let d := d.puts [(F.MEM_STACK_TEMP_TEMP_C st, t), (F.MEM_STACK_TEMP_MAX_C st, max t (d.get (F.MEM_STACK_TEMP_MAX_C st)))]
  let d := if 85 < t then d.put (F.MEM_STACK_TEMP_REFRESH_2X st) 1 else if t ≤ 83 then d.put (F.MEM_STACK_TEMP_REFRESH_2X st) 0 else d
  Dev.tripRead (d.showDies, none) (32 + st) t (d.get F.THM_LIMITS2_STACK_TRIP_C) 2 st

/-- STACK_TEMP_READ (R232, R233, R387). -/
def execStackTempRead (st : Fin 24) (t : BitVec 8) (s : State) : Host.Outcome State Fault Refusal := s.updFixed fun z d =>
  if !d.powered then (z, d)
  else
    let r := d.stackTemp st.val t.toNat
    thermalTrip z r.1 r.2

end Sys2Proof.Machine
end

