-- ==== Sys2Proof/Machine/Courses.lean ====
section
/-! DEFINITION. Sys2Proof/Machine/Courses.lean: the course boundary (R26, R248 to R251), the slots of a course and their repair (R262 to R271), status and keystone
words, pace, checkpoints, suspension and takeover (R273 to R285). -/
namespace Sys2Proof.Machine

open Sys2Proof

/-! ### What the job holds -/

def allOnes : Nat := 2 ^ 64 - 1

/-- The active plan, or an empty image. -/
def Dev.plan (d : Dev) : Nat := d.crs.active.getD 0
def Dev.modCrs (d : Dev) (f : CrsS → CrsS) : Dev := { d with crs := f d.crs }
def Dev.ownModule (d : Dev) : Nat := d.get F.CRS_JOB_MODULE
def Dev.role (d : Dev) : Nat := d.get F.CRS_JOB_ROLE

/-- ROLE codes (CRS_JOB). -/
def roleMember : Nat := 0
def roleKeystone : Nat := 1
def roleSuccessor : Nat := 2
def roleActing : Nat := 3

/-- The checks in force (R410), re-evaluated at each join and each leave. -/
def Dev.modeEffSync (d : Dev) : Dev :=
  let m := d.get F.HLT_CHECK_CFG_MODE
  let job : Bool := d.joined && decide (64 < plModules d.plan)
  d.put F.HLT_CHECK_STATUS_MODE_EFF (if m = 0 then (if job then 2 else 1) else m)

/-- An instant of the present course, given as an offset at the base length (R252). -/
def Dev.courseAt (d : Dev) (o : Nat) : Nat := d.boundaryOf d.course + scaled o (d.get F.CRS_LEN_LEN) (plBase d.plan)

/-- Whether the module starts plan items (R271, R282, R284). -/
def Dev.planRuns (d : Dev) : Bool := d.joined && d.crs.active.isSome && !d.suspended && !d.jobFailed && !d.crs.halted

/-- A lasting failure of this module: the next status word reports the first one (R271, R272). -/
def Dev.lastingFailure (d : Dev) (cause slot peer : Nat) : Dev :=
  d.modCrs fun c => { c with lasting := if c.lasting.isNone then some (cause, slot, peer) else c.lasting, detected := true }

/-- An alarm that a joined job treats as a lasting failure (R414). -/
def Dev.noteAlarm (d : Dev) : Dev :=
  if d.joined && d.hlt.alarmJob then { d with hlt := { d.hlt with alarmJob := false } }.lastingFailure 3 0 0 else d

/-- The job has failed (R284). -/
def Dev.jobFail (z : Fixed) (d : Dev) : Dev :=
  if d.jobFailed then d else (d.put F.CRS_JOB_FAILED 1).notice z noticeFailed 0 d.course

/-! ### Items of a plan (R257, R267, R268) -/

/-- The course of the latest run of a receive entry at or before course `c`, since the plan became active; else that of its next run. -/
def Dev.recvCourse (d : Dev) (ix c : Nat) : Nat :=
  let p := d.plan
  let n := plCycle p
  let pos := position p d.crs.phase c
  let q := ((List.range n).find? fun q => (rangeOf (posRecvs (coursePos p q))).contains ix).getD pos
  let back := if q ≤ pos then pos - q else pos + n - q
  if d.crs.since + back ≤ c then c - back else c + n - back

/-- Whether the operation that a send depends on has completed: its latest start at or before the course of the slot (R258). Tags name operations of the plan that
the slot is of, be it the active one or the one before (R261). -/
def Dev.depMet (d : Dev) (s : SendRun) : Bool :=
  seDep s.entry = 0 ||
    match (d.crs.ops.filter fun o => o.tag = seDep s.entry && o.gen = s.gen && decide (o.course ≤ s.course)).getLast? with
    | some o => o.done.isSome && !o.failed
    | none => false

/-- The operation entry `i` starts in course `c`: its descriptor is read (R257). -/
def Dev.addOp (z : Fixed) (d : Dev) (c i : Nat) : Dev :=
  let e := opAt d.plan i
  let a := oeDesc e
  let st := (readStatus z d (some (enPart (d.entry d.crs.joinCtx))) a 64).map (·.2)
  let d := d.touch a 64
  let waits := if oeWait e = 0xFFFF then none else some (oeWait e, d.recvCourse (oeWait e) c)
  let o : PlanOp := { key := d.crs.nextOp, tag := oeTag e, course := c, due := c + oeSpan e - 1, report := oeReport e, waits := waits,
                      desc := d.peekNat a 64, refused := st.getD 0, gen := d.crs.gen }
  d.modCrs fun x => { x with ops := x.ops ++ [o], nextOp := x.nextOp + 1 }

/-- PLAN_ITEMS_START: the items of the plan position of course `c` (R267): receives open, operations start in entry order, sends fall due. -/
def Dev.planItems (z : Fixed) (d : Dev) (c : Nat) : Dev :=
  if !d.planRuns then d
  else
    let p := d.plan
    let q := coursePos p (position p d.crs.phase c)
    let recvs := (rangeOf (posRecvs q)).map fun i => ({ ix := i, entry := recvAt p i, course := c } : RecvRun)
    let sends := (rangeOf (posSends q)).map fun i => ({ entry := sendAt p i, course := c, gen := d.crs.gen } : SendRun)
    let d := d.modCrs fun x => { x with recvs := x.recvs ++ recvs, sends := x.sends ++ sends }
    ((rangeOf (posOps q)).foldl (fun d i => d.addOp z c i) d).startItems z

/-- Forget runs that nothing refers to any more: those of courses before the last one that a later run of the same entry has replaced. -/
def Dev.pruneItems (d : Dev) (c : Nat) : Dev :=
  d.modCrs fun x => { x with
    sends := x.sends.filter fun s => decide (c ≤ s.course + 1)
    recvs := x.recvs.filter fun r => decide (c ≤ r.course + 1) || !(x.recvs.any fun y => y.ix = r.ix && decide (r.course < y.course))
    ops := x.ops.filter fun o => o.done.isNone || decide (c ≤ o.due + 1) ||
      (decide (o.tag ≠ 0) && (o.gen = x.gen || x.sends.any fun s => s.gen = o.gen && decide (c ≤ s.course + 1)) &&
        !(x.ops.any fun y => y.tag = o.tag && y.gen = o.gen && decide (o.course < y.course))) }

/-! ### Items armed for courses (R250, R285, R290) -/

/-- End an armed item with a status. -/
def Dev.endArmed (d : Dev) (fl st : Nat) (f : Flight) : Dev := if descOp f.desc = 0x01 then d.endOp fl st else d.done fl st

/-- The flights armed for a course that satisfies a test, in order of dispatch. -/
def Dev.armedFor (d : Dev) (p : Nat → Bool) : List (Nat × Flight) :=
  d.host.flights.filter fun x => !x.2.ready && match x.2.armed with
    | some a => p a
    | none => false

/-- What was armed for a course that is passed over or past completes with COURSE_PASSED (R250). -/
def Dev.passArmed (d : Dev) (c : Nat) : Dev := (d.armedFor fun a => decide (a < c)).foldl (fun d x => d.endArmed x.1 stCoursePassed x.2) d

/-- Whether an armed item is one of the job's: that of a context in the job's partition, or a CHECKPOINT (R287, R289). -/
def Dev.jobItem (d : Dev) (f : Flight) : Bool := f.partition = enPart (d.entry d.crs.joinCtx) || descOp f.desc = 0x0E

/-- During a suspension what the job has armed for the course completes with JOB_SUSPENDED (R282, R285). -/
def Dev.suspendArmed (d : Dev) (c : Nat) : Dev :=
  if !(d.joined && d.suspended) then d
  else ((d.armedFor fun a => a = c).filter fun x => d.jobItem x.2).foldl (fun d x => d.endArmed x.1 stJobSuspended x.2) d

/-- Step 5: the bank swaps armed for the course (R64). -/
def Dev.armedSwaps (d : Dev) (c : Nat) : Dev :=
  ((d.armedFor fun a => a = c).filter fun x => descOp x.2.desc = 0x03).foldl (fun d x => d.enterSwaps x.1 true) d

/-- Step 6: the operations, waits and checkpoints armed for the course (R133, R289, R290). -/
def Dev.armedStarts (z : Fixed) (d : Dev) (c : Nat) : Dev :=
  (d.armedFor fun a => a = c).foldl (fun d x => match descOp x.2.desc with
    | 0x01 => d.releaseOp z x.1
    | 0x09 => d.done x.1 stOK
    | 0x0E => d.modFlight x.1 fun f => { f with armed := none }
    | _ => d) d

/-! ### Plans becoming active (R261) -/

/-- The role of this module under a plan (R273). -/
def roleUnder (p module : Nat) : Nat :=
  if plKeystone p = module then roleKeystone else if 1 < plModules p ∧ plSuccessor p = module then roleSuccessor else roleMember

/-- From course `c` on courses have their position in a plan by a PHASE (R261, R283). -/
def CrsS.phased (x : CrsS) (p c phase : Nat) : CrsS := { x with phase := phase, since := c, phases := (c, plCycle p, phase) :: x.phases }

/-- The plan position that a course had or has (R281). -/
def CrsS.placeOf (x : CrsS) (c : Nat) : Nat := match x.phases.find? fun q => decide (q.1 ≤ c) with
  | some (_, n, phase) => cyclePlace n phase c
  | none => 0

/-- The staged plan becomes active at course `c` with a phase. `anew`: at a join or a resume, where the plan names the keystone; a swap leaves an acting keystone
in its place (R275). -/
def Dev.activate (d : Dev) (p c phase : Nat) (anew : Bool) : Dev :=
  let stays : Bool := !anew && d.crs.acting.isSome
  (d.dropStaged.modCrs fun x => { x.phased p c phase with active := some p, gen := x.gen + 1, acting := if anew then none else x.acting }).puts
    [(F.CRS_PLAN_ACTIVE_ID, plId p), (F.CRS_LEN_BASE_LEN, plBase p), (F.CRS_JOB_ROLE, if stays then d.role else roleUnder p d.ownModule)]

/-- POSITION and GUARD_NS of course `c`. -/
def Dev.showCourse (d : Dev) (c : Nat) : Dev := match d.crs.active with
  | some p => d.puts [(F.CRS_PLAN_STATUS_POSITION, position p d.crs.phase c), (F.CRS_GUARD_GUARD_NS, d.lenNs * plGuard p / 64)]
  | none => d.puts [(F.CRS_PLAN_STATUS_POSITION, 0), (F.CRS_GUARD_GUARD_NS, 0)]

/-! ### Suspension and resumption (R282 to R285) -/

/-- Report an operation of the plan that never starts (R272). -/
def Dev.unstarted (z : Fixed) (d : Dev) (o : PlanOp) : Dev :=
  let (n, d) := d.drawFree
  let c := d.crs.joinCtx
  d.writeRecord z c (n.toNat % 2 ^ 20) (d.entry c) stJobSuspended 0 d.course {} 0 (descIrq o.desc)

/-- SUSPENSION_START, at a boundary (R282, R285). -/
def Dev.suspend (z : Fixed) (d : Dev) (cause : Nat) : Dev :=
  let d := (d.put F.CRS_JOB_SUSPENDED 1).bump F.CRS_CNT_SUSPENSIONS 1
  let d := d.notice z noticeSuspension cause d.course
  let d := if d.bit F.CRS_PLAN_STATUS_STAGED_FIRST then d else d.cancelStaged
  let waits := d.host.flights.filter fun x => x.2.ctx = d.crs.joinCtx && !x.2.ready && descOp x.2.desc = 0x09
  let d := waits.foldl (fun d x => d.done x.1 stJobSuspended) d
  let d := (d.crs.ops.filter fun o => o.flight.isNone).foldl (fun d o => d.unstarted z o) d
  let d := d.modCrs fun x => { x with
    suspendDue := none
    suspends := if x.suspends.isNone then some cause else x.suspends
    ops := x.ops.filter fun o => o.flight.isSome
    sends := x.sends.filter fun s => !(s.phase = .due || s.phase = .failed)
    recvs := x.recvs.filter fun r => r.done }
  if d.get F.CRS_CKPT_COMMITTED = allOnes then d.jobFail z else d

/-- JOB_RESUME at course `c` (R283). -/
def Dev.resumeJob (z : Fixed) (d : Dev) (c : Nat) : Dev :=
  let pos := d.crs.committedPos
  let p := match d.crs.staged with
    | some s => if d.bit F.CRS_PLAN_STATUS_STAGED_FIRST then s else d.plan
    | none => d.plan
  let phase := position p pos c
  let d := if d.bit F.CRS_PLAN_STATUS_STAGED_FIRST && d.crs.staged.isSome then d.activate p c phase true
    else d.modCrs fun x => x.phased p c phase
  let restored := d.host.flights.filter fun x => !x.2.ready && descOp x.2.desc = 0x0E && !x.2.isSave
  let d := restored.foldl (fun d x => d.done x.1 stOK) d
  let d := d.modCrs fun x => { x with detected := false, halted := false, lasting := none, suspends := none, fault := none, resume := none, ready := none,
                                      lostModules := [], sends := [], recvs := [] }
  (d.put F.CRS_JOB_SUSPENDED 0).notice z noticeResumed 0 c

/-! ### Joining and leaving (R250, R287, R288) -/

def clearedPace : List (Fld × Nat) := [(F.CRS_PACE_PENDING, 0), (F.CRS_PACE_LIMITED, 0), (F.CRS_PACE_NEW_LEN, 0), (F.CRS_PACE_EFFECTIVE, 0)]

/-- The module joins a job under plan `p`. A joining context that is stopping leaves again at the next boundary (R331). -/
def Dev.joinJob (z : Fixed) (d : Dev) (j : Join) (p : Nat) : Dev :=
  let d := d.puts ([(F.CRS_JOB_JOB_ID, j.jobId), (F.CRS_JOB_MODULE, j.module), (F.CRS_JOB_JOINED, 1), (F.CRS_JOB_SUSPENDED, b01 j.resuming), (F.CRS_JOB_FAILED, 0),
    (F.CRS_CKPT_DONE, allOnes), (F.CRS_CKPT_COMMITTED, allOnes)] ++ clearedPace)
  let e : CrsS := { staged := d.crs.staged, active := d.crs.active, snapshot := d.crs.snapshot, joinCtx := j.ctx, vector := j.vector, nextOp := d.crs.nextOp, gen := d.crs.gen,
                    prevLen := d.get F.CRS_LEN_LEN, lastChange := j.course, suspends := if j.resuming && plKeystone p = j.module then some j.module else none,
                    leaves := if d.ctxState j.ctx = codeON then [] else [(none, 0)] }
  let d := { d with crs := e }.activate p j.course j.course true
  let d := d.modFlight j.flight fun f => { f with stamp := some j.course }.finish stOK
  let d := d.showPin j.ctx true
  (if d.ctxState j.ctx = codeON && !d.bit (F.CTX_STATUS_RESIDENT j.ctx) then (d.takePlace j.ctx).proceed z j.ctx else d).modeEffSync

/-- LEAVE_APPLY (R288). -/
def Dev.leaveJob (d : Dev) : Dev :=
  let c := d.crs.joinCtx
  let d := d.crs.leaves.foldl (fun d x => match x.1 with
    | some fl => d.done fl stOK
    | none => d) d
  let d := d.dropStaged.puts ([(F.CRS_JOB_JOB_ID, 0), (F.CRS_JOB_MODULE, 0), (F.CRS_JOB_JOINED, 0), (F.CRS_JOB_ROLE, 0), (F.CRS_JOB_SUSPENDED, 0),
    (F.CRS_JOB_FAILED, 0), (F.CRS_PLAN_ACTIVE_ID, 0), (F.CRS_LEN_BASE_LEN, 0)] ++ clearedPace)
  let e : CrsS := { snapshot := d.crs.snapshot, join := d.crs.join, nextOp := d.crs.nextOp, gen := d.crs.gen }
  let restored := d.host.flights.filter fun x => !x.2.ready && descOp x.2.desc = 0x0E && !x.2.isSave
  let d := restored.foldl (fun d x => d.done x.1 stNotJoined) { d with crs := e }
  (d.showPin c (enPin (d.entry c))).modeEffSync

/-! ### The words of the course that ends (R273 to R275, R278) -/

/-- What the keystone or successor holds of a module that has sent no word. -/
def noReport : Report := { course := allOnes, req := 0, ckpt := allOnes, ready := none, leaving := none, planId := 0 }

def Dev.report (d : Dev) (m : Nat) : Report := tget noReport d.crs.reports m

/-- A module whose LEAVE_COURSE has been reached is no module of the job any more. -/
def Report.left (r : Report) (c : Nat) : Bool := match r.leaving with
  | some l => decide (l ≤ c)
  | none => false

/-- Courses in a row without a keystone word that tell a module that nobody is left to send one (R275, R284): MISS_LIMIT while the job is suspended or an acting
keystone sends them, and else TAKEOVER more, in which the successor could have taken over (log entry 273: DESIGN CHOICE). -/
def Dev.wordLimit (d : Dev) : Nat :=
  if d.suspended || d.crs.acting.isSome then plMiss d.plan else plMiss d.plan + plTakeover d.plan

/-- At the end of a joined course: missing words are counted, and the keystone and successor settle what the course's status words say. -/
def Dev.wordsEnd (z : Fixed) (d : Dev) : Dev :=
  let e := d.course
  let p := d.plan
  let listens : Bool := d.role = roleMember || d.role = roleSuccessor
  let missed := if d.crs.wordIn then 0 else d.crs.missedWords + 1
  let d := if listens then (if d.crs.wordIn then d else d.bump F.CRS_CNT_KEYSTONE_MISSED 1).modCrs fun x => { x with missedWords := missed } else d
  let d := d.modCrs fun x => { x with wordIn := false }
  let d := if listens && decide (d.wordLimit ≤ missed) then d.jobFail z else d
  if d.role = roleMember then d
  else
    let ms := List.range (plModules p)
    let silent := ms.filter fun m => decide ((d.report m).course ≠ e) && !(d.report m).left e
    let reports := silent.foldl (fun t m => tmod noReport t m fun r => { r with missed := r.missed + 1 }) d.crs.reports
    let reqs := (ms.filter fun m => (d.report m).course = e).map fun m => (d.report m).req
    (d.bump F.CRS_CNT_STATUS_MISSED silent.length).modCrs fun x => { x with
      reports := reports, seen := reports, reqs := ((e, reqs.foldl max 0) :: x.reqs).take (plHold p),
      suspends := if x.suspends.isNone then x.fault else x.suspends, fault := none }

/-! ### The boundary -/

/-- Put the anchor and the length in force. -/
def Dev.setAnchor (d : Dev) (course time len : Nat) : Dev :=
  d.puts [(F.CRS_ANCHOR_COURSE, course), (F.CRS_ANCHOR_TIME, time), (F.CRS_LEN_LEN, len)]

/-- The idle anchor (R249). -/
def Dev.idleAnchor (d : Dev) : Dev :=
  let d := d.setAnchor 0 0 (d.get F.CRS_IDLE_LEN_IDLE_LEN)
  d.put F.CRS_COURSE_COURSE (d.time / d.lenNs)

/-- Whether a plan becomes active at course `c` in step 2, and which: a swap, or a resume with a staged plan (R261). -/
def Dev.plannedAt (d : Dev) (c : Nat) : Option Nat :=
  if !d.joined || d.jobFailed then none
  else if d.bit F.CRS_PLAN_STATUS_STAGED_FIRST then (if d.suspended && d.crs.resume = some c then d.crs.staged else none)
  else if d.suspended || d.crs.suspendDue.isSome || decide (d.get F.CRS_PLAN_SWAP ≠ c) then none
  else d.crs.staged

/-- Step 1 within a job: an announced change due at `c`, then the base length of the plan that becomes active at `c`; the base length of the active plan bounds
every change from below (R279, R280). -/
def Dev.pace (d : Dev) (c : Nat) : Dev :=
  let due : Bool := d.bit F.CRS_PACE_PENDING && d.get F.CRS_PACE_EFFECTIVE = c
  let len := d.get F.CRS_LEN_LEN
  let l1 := if due then d.get F.CRS_PACE_NEW_LEN else len
  let l2 := max l1 (plBase ((d.plannedAt c).getD d.plan))
  let b := d.boundaryOf c
  let d := if due then ((d.put F.CRS_PACE_PENDING 0).bump F.CRS_CNT_PACE_CHANGES 1).modCrs fun x => { x with lastChange := c } else d
  if l2 = len then d else d.setAnchor c b l2

/-- COUNTER_SNAPSHOT (R28). -/
def Dev.snapshot (d : Dev) : Dev :=
  d.modCrs fun x => { x with snapshot := d.regs.filter fun p => counterTable.any fun r => (r.indices (p.1 / 64)).isSome }

/-- Steps 2 to 6 of R26 for course `c`. `plan`: the plan that becomes active in step 2. -/
def Dev.boundarySteps (z : Fixed) (d : Dev) (c : Nat) (plan : Option Nat) : Dev :=
  let d := match d.crs.suspendDue with
    | some m => if d.joined && !d.suspended then d.suspend z m else d
    | none => d
  let d := if d.joined && d.suspended && !d.jobFailed && d.crs.resume = some c then d.resumeJob z c
    else match plan with
      | some p => if d.suspended then d else d.activate p c c false
      | none => d
  let d := (d.showCourse c).modCrs fun x => { x with halted := x.detected }
  let d := (((d.moveCores.switchBorrows).sliceBoundaries).applyParking c).noteThrottle
  let d := ((d.passArmed c).suspendArmed c).armedSwaps c
  let d := d.armedStarts z c
  (d.planItems z c).pruneItems c

/-- The plan that a join makes active: the staged plan with FIRST = 1, as long as it is still one of the job and the module (R261, R287; log entry 274: DESIGN
CHOICE). -/
def Dev.joinPlan (d : Dev) (j : Join) : Option Nat := match d.crs.staged with
  | some p => if d.bit F.CRS_PLAN_STATUS_STAGED_FIRST && plJob p = j.jobId && plModule p = j.module then some p else none
  | none => none

/-- COURSE_BOUNDARY: the next boundary fires, be it that of the next course, of a join that is due, of a leave, or of a change of IDLE_LEN. -/
def Dev.boundary (z : Fixed) (d : Dev) : Dev :=
  let next := d.boundaryOf (d.course + 1)
  let join := match d.crs.join with
    | some j => if anchorTime j.anchorCourse j.anchorTime j.len j.course ≤ next then some j else none
    | none => none
  let d := d.reach (match join with
    | some j => anchorTime j.anchorCourse j.anchorTime j.len j.course
    | none => next)
  let d := ((d.noteAlarm.bump F.CRS_CNT_COURSES 1).put F.PWR_STATUS_THROTTLED (b01 d.pwr.throttled))
  let d := { d with pwr := { d.pwr with throttled := false } }
  let d := d.modCrs fun x => { x with prevLen := d.get F.CRS_LEN_LEN }
  let d := if d.joined then d.wordsEnd z else d
  let now := d.courseNow
  match join with
  | some j =>
    match d.joinPlan j with
    | none => (d.modCrs fun x => { x with join := none }).done j.flight stNoPlan
    | some p =>
      let d := d.setAnchor j.anchorCourse j.anchorTime j.len
      let d := if j.len < plBase p then d.setAnchor j.course (d.boundaryOf j.course) (plBase p) else d
      (((d.put F.CRS_COURSE_COURSE j.course).snapshot).joinJob z j p).boundarySteps z j.course none
  | none =>
    if d.joined && d.crs.leaves.any (fun x => decide (x.2 ≤ now)) then
      let d := d.leaveJob.idleAnchor.snapshot
      d.boundarySteps z d.course none
    else if !d.joined && d.get F.CRS_IDLE_LEN_IDLE_LEN ≠ d.get F.CRS_LEN_LEN then
      let d := d.idleAnchor.snapshot
      d.boundarySteps z d.course none
    else
      let plan := d.plannedAt now
      let d := d.put F.CRS_COURSE_COURSE now
      let d := (if d.joined then d.pace now else d).snapshot
      d.boundarySteps z now plan

/-- COURSE_BOUNDARY (R26, R251). -/
def execCourseBoundary (s : State) : Host.Outcome State Fault Refusal := s.upd fun z d => d.boundary z

/-! ### Sending slots (R263, R268, R270) -/

def Dev.modSend (d : Dev) (slot course : Nat) (f : SendRun → SendRun) : Dev :=
  d.modCrs fun x => { x with sends := x.sends.map fun s => if seSlot s.entry = slot && s.course = course then f s else s }

def Dev.findSend (d : Dev) (slot course : Nat) : Option SendRun := d.crs.sends.find? fun s => seSlot s.entry = slot && s.course = course

/-- Segments of a slot of `n` bytes. -/
def segments (n : Nat) : Nat := ceilDiv n 8192

/-- Send every segment of a slot on its port. -/
def Dev.sendSegments (z : Fixed) (d : Dev) (s : SendRun) (repair : Bool) : Dev :=
  let p := d.plan
  let e := s.entry
  let n := seLength e
  let d := d.touch (seAddr e) n
  (List.range (segments n)).foldl (fun d k =>
    let len := min 8192 (n - 8192 * k)
    d.sendFrame z (sePort e) (plMac p (sePeer e) (sePort e))
      (dyoshHeader 0 repair (decide (k + 1 = segments n)) (sePort e) (plJob p) d.ownModule (sePeer e) s.course (seSlot e) k len (plId p))
      (d.peeks (seAddr e + 8192 * k) len)) d

/-- Whether a slot can be sent now: its dependency is met, its port up, its data readable. -/
def Dev.slotReady (z : Fixed) (d : Dev) (s : SendRun) : Bool :=
  d.depMet s && d.portUp (sePort s.entry) &&
    (readStatus z d (some (enPart (d.entry d.crs.joinCtx))) (seAddr s.entry) (seLength s.entry)).isNone

/-- SLOT_SEND: a slot of the present course starts at its scaled offset. -/
def Dev.slotSend (z : Fixed) (d : Dev) (slot : Nat) : Dev :=
  match d.findSend slot d.course with
  | none => d
  | some s =>
    if s.phase ≠ .due ∨ d.jobFailed then d
    else
      let start := d.courseAt (seOffset s.entry)
      let deadline := start + slotNs (seLength s.entry) + plAckNs d.plan
      let d := d.reach start
      if d.slotReady z s then
        ((d.sendSegments z s false).bump F.CRS_CNT_SLOTS_SENT 1).modSend slot s.course fun s => { s with phase := .sent, deadline := deadline }
      else (d.bump F.CRS_CNT_SLOT_LATE 1).modSend slot s.course fun s => { s with phase := .failed, deadline := deadline }

/-- SLOT_SEND (R268). -/
def execSlotSend (slot : BitVec 12) (s : State) : Host.Outcome State Fault Refusal := s.upd fun z d => d.slotSend z slot.toNat

/-- A slot fails for good (R271). -/
def Dev.slotLasting (d : Dev) (s : SendRun) : Dev :=
  ((d.modSend (seSlot s.entry) s.course fun s => { s with phase := .lasting }).bump F.CRS_CNT_SLOT_LASTING 1).lastingFailure 1 (seSlot s.entry) (sePeer s.entry)

/-- A slot that was sent, or sent again, has not been acknowledged: it goes to repair, or has failed for good. -/
def Dev.slotFailed (d : Dev) (s : SendRun) : Dev := match s.phase with
  | .sent => d.modSend (seSlot s.entry) s.course fun s => { s with phase := .failed }
  | .resent => d.slotLasting s
  | _ => d

/-- ACK_DEADLINE (R270). -/
def Dev.ackDeadline (d : Dev) (course slot : Nat) : Dev :=
  match d.findSend slot course with
  | none => d
  | some s => if s.phase = .sent || s.phase = .resent then (d.reach (s.deadline + 1)).slotFailed s else d

/-- ACK_DEADLINE (R270). -/
def execAckDeadline (course : BitVec 64) (slot : BitVec 12) (s : State) : Host.Outcome State Fault Refusal := s.upd fun _ d =>
  d.ackDeadline course.toNat slot.toNat

/-- The failed slots of the previous course on a port, in increasing SLOT_ID (R270). -/
def Dev.repairQueue (d : Dev) (port : Nat) : List SendRun :=
  let l := d.crs.sends.filter fun s => s.course + 1 = d.course && sePort s.entry = port &&
    (s.phase = .failed || (s.phase = .sent && decide (s.deadline < d.time)))
  l.mergeSort fun a b => decide (seSlot a.entry ≤ seSlot b.entry)

/-- One re-send: the instant at which the next may start. -/
def Dev.resend (z : Fixed) (d : Dev) (s : SendRun) (t stop : Nat) : Nat × Dev :=
  let stopAt := t + slotNs (seLength s.entry)
  if !d.portUp (sePort s.entry) then (t, d.slotLasting s)
  else if stop < stopAt then (t, (d.bump F.CRS_CNT_REPAIR_FULL 1).slotLasting s)
  else if !d.slotReady z s then (t, d.slotLasting s)
  else (stopAt, ((d.reach t).sendSegments z s true).modSend (seSlot s.entry) s.course fun s => { s with phase := .resent, deadline := stopAt + plAckNs d.plan })

/-- REPAIR_SLOT: the repair slot of a port (R270, R271). -/
def Dev.repairSlot (z : Fixed) (d : Dev) (port : Nat) : Dev :=
  if !d.joined || d.suspended || d.jobFailed then d
  else
    let start := d.courseAt (plRepairOff d.plan port)
    let d := d.reach start
    ((d.repairQueue port).foldl (fun (a : Nat × Dev) s => a.2.resend z s a.1 (start + plRepairNs d.plan port)) (start, d)).2

/-- REPAIR_SLOT (R270, R271). -/
def execRepairSlot (p : Fin 2) (s : State) : Host.Outcome State Fault Refusal := s.upd fun z d => d.repairSlot z p.val

/-- A field of a frame's payload. -/
def frPay (fr : EthFrame) (b lo len : Nat) : Nat := fld (leNat (fr.data.drop 32)) b lo len

/-- Whether a frame belongs to the job and, where it names one, to this module. -/
def Dev.frMine (d : Dev) (fr : EthFrame) : Bool :=
  d.joined && frHdr fr 2 0 16 = d.get F.CRS_JOB_JOB_ID && (frHdr fr 6 0 11 = d.ownModule || frHdr fr 6 0 11 = 0x7FF)

/-- ACK_FRAME: an acknowledgement or its refusal for a slot that was sent (R264, R268, R270, R271); a payload with a reserved byte or code is refused (R9). An ACK
that comes after its deadline, be it of a slot sent again since, is ignored and counted. -/
def Dev.ackFrame (d : Dev) (p : Nat) (fr : EthFrame) : Dev :=
  let result := frPay fr 0 0 8
  let shaped : Bool := fr.data.length = 48 && decide (result ≤ 3) && frPay fr 1 0 8 = 0 && frPay fr 4 0 96 = 0
  let again : Bool := frHdr fr 1 0 1 = 1
  let drop := d.bump (F.FAB_PORT_CNT_DROPPED p) 1
  let late := d.bump F.CRS_CNT_ACK_LATE 1
  match d.findSend (frHdr fr 16 0 12) (frHdr fr 8 0 64) with
  | none => drop
  | some s =>
    if !d.frMine fr || decide (sePeer s.entry ≠ frHdr fr 4 0 10) || !shaped then drop
    else if (s.phase = .sent && !again) || (s.phase = .resent && again) then
      if result ≠ 0 then d.slotFailed s
      else if s.deadline < d.time then late.slotFailed s
      else (if again then d.bump F.CRS_CNT_SLOT_TRANSIENT 1 else d).modSend (seSlot s.entry) s.course fun s => { s with phase := .acked, ackAt := d.time }
    else if result = 0 && !(s.phase = .due) && (decide (s.deadline < d.time) || (!again && decide (s.course ≠ d.course))) then late
    else d

/-- ACK_FRAME (R264). -/
def execAckFrame (p : Fin 2) (fr : EthFrame) (ns : Nat) (s : State) : Host.Outcome State Fault Refusal := s.upd fun z d =>
  (d.elapse ns).takeFrame z p.val 1 fr id fun d => d.ackFrame p.val fr

/-! ### Receiving slots (R269) -/

/-- The receive that a DATA frame belongs to. -/
def Dev.findRecv (d : Dev) (fr : EthFrame) : Option RecvRun :=
  let c := frHdr fr 8 0 64
  if !d.frMine fr || !(c = d.course || (c + 1 = d.course && frHdr fr 1 0 1 = 1)) then none
  else d.crs.recvs.find? fun r => sePeer r.entry = frHdr fr 4 0 10 && seSlot r.entry = frHdr fr 16 0 12 && r.course = c

def Dev.modRecv (d : Dev) (r : RecvRun) : Dev :=
  d.modCrs fun x => { x with recvs := x.recvs.map fun y => if y.ix = r.ix && y.course = r.course then r else y }

/-- Answer a slot with an ACK frame (R264). -/
def Dev.sendAck (z : Fixed) (d : Dev) (p : Nat) (fr : EthFrame) (r : RecvRun) (result : Nat) : Dev :=
  let pl := d.plan
  let peer := sePeer r.entry
  d.sendFrame z p (plMac pl peer p)
    (dyoshHeader 1 (frHdr fr 1 0 1 = 1) false p (plJob pl) d.ownModule peer r.course (seSlot r.entry) 0 16 (plId pl))
    (leBytes 16 (result + r.got.length * 2 ^ 16))

/-- DATA_FRAME with a good PCRC. -/
def Dev.dataFrame (z : Fixed) (d : Dev) (p : Nat) (fr : EthFrame) : Dev :=
  match d.findRecv fr with
  | none => d.bump (F.FAB_PORT_CNT_DROPPED p) 1
  | some r =>
    let isLast : Bool := frHdr fr 1 1 1 = 1
    let again : Bool := frHdr fr 1 0 1 = 1
    if r.done then (if isLast then (d.sendAck z p fr r 0).bump F.CRS_CNT_RECV_DUPLICATE 1 else d)
    else
      let r := if again && !r.repair then { r with got := [], bytes := 0, badSeg := false, last := none, repair := true } else r
      let k := frHdr fr 18 0 10
      let data := fr.data.drop 32
      let room := seLength r.entry - 8192 * k
      let a := seAddr r.entry + 8192 * k
      let refused := rangeStatus z d (some (enPart (d.entry d.crs.joinCtx))) a (min room data.length)
      let d := match refused with
        | some (x, st) => d.denied x st
        | none => d.store none a (data.take room)
      let r := if refused.isSome || r.got.contains k then r else { r with got := r.got ++ [k], bytes := r.bytes + data.length }
      let r := if isLast then { r with last := some k } else r
      match r.last with
      | none => d.modRecv r
      | some l =>
        if r.badSeg then d.modRecv r
        else if !((List.range (l + 1)).all fun i => r.got.contains i) then (d.modRecv r).sendAck z p fr r 2
        else if r.bytes ≠ seLength r.entry then (d.modRecv r).sendAck z p fr r 3
        else ((((d.modRecv { r with done := true }).sendAck z p fr r 0).bump F.CRS_CNT_SLOTS_RECEIVED 1)).startItems z

/-- DATA_FRAME whose PCRC fails: it is discarded, and its slot is refused at once. -/
def Dev.dataBad (z : Fixed) (d : Dev) (p : Nat) (fr : EthFrame) : Dev :=
  match d.findRecv fr with
  | none => d
  | some r =>
    if r.done then d
    else
      let again : Bool := frHdr fr 1 0 1 = 1
      let r := if again && !r.repair then { r with got := [], bytes := 0, last := none, repair := true } else r
      (d.modRecv { r with badSeg := true }).sendAck z p fr r 1

/-- DATA_FRAME (R269). -/
def execDataFrame (p : Fin 2) (fr : EthFrame) (ns : Nat) (s : State) : Host.Outcome State Fault Refusal := s.upd fun z d =>
  (d.elapse ns).takeFrame z p.val 0 fr (fun d => d.dataBad z p.val fr) fun d => d.dataFrame z p.val fr

/-- RECEIVE_DEADLINE: a receive of the previous course is still incomplete at the end of its sender's repair slot plus ACK_NS (R271). -/
def Dev.receiveDeadline (d : Dev) (ix : Nat) : Dev :=
  match d.crs.recvs.find? fun r => r.ix = ix && r.course + 1 = d.course && !r.done && !r.lasting with
  | none => d
  | some r =>
    if !d.joined then d
    else
      let k := sePort r.entry
      let d := d.reach (d.courseAt (plRepairOff d.plan k) + plRepairNs d.plan k + plAckNs d.plan)
      ((d.modRecv { r with lasting := true }).bump F.CRS_CNT_SLOT_LASTING 1).lastingFailure 2 (seSlot r.entry) (sePeer r.entry)

/-- RECEIVE_DEADLINE (R271). -/
def execReceiveDeadline (ix : Fin 4096) (s : State) : Host.Outcome State Fault Refusal := s.upd fun _ d => d.receiveDeadline ix.val

/-! ### Slack and the status word (R265, R276, R277) -/

/-- slack(c) for the course before the present one, at the time the status word is sent (R276). -/
def Dev.slack (d : Dev) : Int :=
  let b := d.boundaryOf d.course
  let ops := (d.crs.ops.filter fun o => o.due + 1 = d.course).map fun o => (b : Int) - o.done.getD d.time
  let sends := (d.crs.sends.filter fun s => s.course + 1 = d.course).map fun s => (b : Int) - (if s.phase = .acked then s.ackAt else d.time)
  match ops ++ sends with
  | [] => ((256 * d.crs.prevLen : Nat) : Int)
  | x :: l => l.foldl min x

/-- REQ_LEN of a slack (R277). -/
def reqLen (len guard base : Nat) (slack : Int) : Nat :=
  max base (min 256 (ceilDiv (((len : Int) - slack).toNat * 64) ((64 - guard) * 256)))

/-- Send a word to a group of the plan on each port that is ON with its link up (R267). -/
def Dev.sendWord (z : Fixed) (d : Dev) (type group : Nat) (payload : List Byte) : Dev :=
  let pl := d.plan
  [0, 1].foldl (fun d p => if !d.portUp p then d
    else d.sendFrame z p group (dyoshHeader type false false p (plJob pl) d.ownModule 0x7FF d.course 0 0 payload.length (plId pl)) payload) d

/-- The course of the leave that a JOB_LEAVE has armed, if any (R288): 0 stands for the next boundary. The leave of a disabled context is not announced
(R331). -/
def Dev.leaveCourse (d : Dev) : Option Nat :=
  ((d.crs.leaves.filter fun x => x.1.isSome).map fun x => if x.2 = 0 then d.course + 1 else x.2).foldl (fun a c => match a with
    | none => some c
    | some b => some (min b c)) none

/-- The 48 bytes of a status word (R265). -/
def Dev.statusBytes (d : Dev) (slack : Int) (req : Nat) (request : Bool) : List Byte :=
  let st := d.timeState
  let l := d.crs.lasting.getD (0, 0, 0)
  leBytes 48 (ofSigned 32 slack + req * 2 ^ 32 +
    (b01 request + 2 * b01 d.crs.lasting.isSome + 4 * d.get F.PWR_STATUS_THROTTLED + 8 * b01 (decide (st = timeHoldover ∨ st = timeHoldoverPps)) +
      16 * b01 (decide (st = timeLost)) + 32 * b01 d.leaveCourse.isSome + 64 * b01 d.crs.ready.isSome + 128 * b01 (decide (slack < 0))) * 2 ^ 48 +
    l.1 % 16 * 2 ^ 56 + d.get F.CRS_CKPT_DONE * 2 ^ 64 + d.crs.ready.getD 0 * 2 ^ 128 + d.leaveCourse.getD 0 * 2 ^ 192 + l.2.1 * 2 ^ 256 +
    l.2.2 * 2 ^ 272 + d.get F.FAB_TIME_STATUS_TIME_ERR_NS * 2 ^ 288)

/-- A fault that the keystone or successor sees of a module (R274, R282). -/
def Dev.jobFault (d : Dev) (m : Nat) : Dev :=
  if d.suspended || d.crs.suspends.isSome then d.bump F.CRS_CNT_FAULTS_SUSPENDED 1
  else d.modCrs fun x => { x with fault := if x.fault.isNone then some m else x.fault }

/-- Record the status word of a module (R273, R274). -/
def Dev.takeStatus (d : Dev) (m course planId : Nat) (w : Nat) : Dev :=
  let r : Report := { course := d.course, req := fld w 4 0 9, ckpt := fld w 8 0 64, ready := if fld w 6 6 1 = 1 then some (fld w 16 0 64) else none,
                      leaving := if fld w 6 5 1 = 1 then some (fld w 24 0 64) else none, planId := planId }
  let d := d.modCrs fun x => { x with reports := tset x.reports m r, lostModules := x.lostModules.filter (· ≠ m) }
  let bad : Bool := fld w 6 1 1 = 1 || fld w 6 4 1 = 1 || decide (course ≠ d.course) ||
    (decide (planId ≠ d.get F.CRS_PLAN_ACTIVE_ID) && decide (d.crs.since ≤ course))
  if bad then d.jobFault m else d

/-- STATUS_WORD_SEND (R265, R267, R276, R277). -/
def Dev.statusSend (z : Fixed) (d : Dev) : Dev :=
  if !d.joined || d.crs.active.isNone || d.crs.statusSent = some d.course then d
  else
    let p := d.plan
    let d := (d.reach (d.courseAt (plStatusOff p))).noteAlarm
    let slack := d.slack
    let len := 256 * d.crs.prevLen
    let req := reqLen len (plGuard p) (plBase p) slack
    let request : Bool := decide (slack < (len * plGuard p / 64 : Nat))
    let bytes := d.statusBytes slack req request
    let d := d.puts [(F.CRS_SLACK_SLACK_NS, ofSigned 32 slack), (F.CRS_GUARD_PACE_REQUEST, b01 request), (F.CRS_GUARD_REQ_LEN, req)]
    let d := if slack < 0 then d.bump F.CRS_CNT_OVERRUNS 1 else d
    let d := if request then d.bump F.CRS_CNT_PACE_REQUESTS 1 else d
    let d := d.sendWord z 2 (plControl p) bytes
    let d := if d.role = roleMember then d else d.takeStatus d.ownModule d.course (plId p) (leNat bytes)
    d.modCrs fun x => { x with statusSent := some d.course, lasting := none }

/-- STATUS_WORD_SEND (R267). -/
def execStatusWordSend (s : State) : Host.Outcome State Fault Refusal := s.upd fun z d => d.statusSend z

/-- Whether a status word has its length and no reserved bit or code (R9, R265). -/
def statusOk (fr : EthFrame) : Bool :=
  fr.data.length = 80 && frPay fr 5 1 7 = 0 && frPay fr 7 0 4 ≤ 5 && frPay fr 7 4 4 = 0 && frPay fr 33 4 4 = 0 && frPay fr 35 2 6 = 0 && frPay fr 38 0 80 = 0

/-- STATUS_FRAME: the keystone or successor takes the first copy of a module's word (R267, R274). -/
def Dev.statusFrame (d : Dev) (p : Nat) (fr : EthFrame) : Dev :=
  let m := frHdr fr 4 0 10
  if !d.frMine fr || decide (plModules d.plan ≤ m) || decide (m = d.ownModule) || !statusOk fr then d.bump (F.FAB_PORT_CNT_DROPPED p) 1
  else if d.role = roleMember || decide ((d.report m).course = d.course) then d
  else d.takeStatus m (frHdr fr 8 0 64) (frHdr fr 24 0 16) (leNat (fr.data.drop 32))

/-- STATUS_FRAME (R274). -/
def execStatusFrame (p : Fin 2) (fr : EthFrame) (ns : Nat) (s : State) : Host.Outcome State Fault Refusal := s.upd fun z d =>
  (d.elapse ns).takeFrame z p.val 2 fr id fun d => d.statusFrame p.val fr

/-- STATUS_MISS_LIMIT: a module has sent no status word for MISS_LIMIT courses, the last of them the course before: the keystone word of the present course
suspends the job (R274). -/
def Dev.statusMissLimit (d : Dev) (m : Nat) : Dev :=
  if !d.joined || d.role = roleMember || decide (plModules d.plan ≤ m) || (d.report m).left d.course || decide ((d.report m).missed < plMiss d.plan) ||
    d.crs.lostModules.contains m then d
  else
    let d := (d.modCrs fun x => { x with lostModules := m :: x.lostModules }).jobFault m
    d.modCrs fun x => { x with suspends := if x.suspends.isNone then x.fault else x.suspends, fault := none }

/-- STATUS_MISS_LIMIT (R274). -/
def execStatusMissLimit (m : Fin 1024) (s : State) : Host.Outcome State Fault Refusal := s.upd fun _ d => d.statusMissLimit m.val

/-! ### The keystone word (R266, R274 to R284) -/

/-- The reports of the modules of the job that have not left, as the course before ended. -/
def Dev.seenReports (d : Dev) : List Report :=
  ((List.range (plModules d.plan)).map fun m => tget noReport d.crs.seen m).filter fun r => !r.left (d.course - 1)

/-- PACE_DECISION (R278): what the word of the present course announces. -/
def Dev.paceDecision (d : Dev) : Dev :=
  let p := d.plan
  let w := d.course
  let len := d.get F.CRS_LEN_LEN
  let base := plBase p
  let need := (d.seenReports.map (·.req)).foldl max 0
  let r := min 256 need
  let d := d.put F.CRS_PACE_LIMITED (b01 (decide (256 < need)))
  let pending := d.bit F.CRS_PACE_PENDING
  let announce := fun (n : Nat) => d.puts [(F.CRS_PACE_PENDING, 1), (F.CRS_PACE_NEW_LEN, n), (F.CRS_PACE_EFFECTIVE, w + plLead p)]
  let replace : Bool := pending && decide (d.get F.CRS_PACE_NEW_LEN < len) && decide (w + 2 ≤ d.get F.CRS_PACE_EFFECTIVE)
  let top := (d.crs.reqs.map (·.2)).foldl max 0
  if len < r then (if !pending || replace then announce r else d)
  else if !pending && decide (base < len) && decide (d.crs.lastChange + plHold p < w) && decide (plHold p ≤ d.crs.reqs.length) &&
    decide (top ≤ max base (len - 2)) then announce (max base top)
  else d

/-- CHECKPOINT_COMMIT (R281). -/
def Dev.commitCheckpoint (d : Dev) : Dev :=
  let l := d.seenReports.map (·.ckpt)
  let least := l.foldl min allOnes
  let old := d.get F.CRS_CKPT_COMMITTED
  if l = [] ∨ l.any (fun c => c = allOnes) ∨ least = old ∨ (old ≠ allOnes ∧ least < old) then d
  else (d.modCrs fun x => { x with committedPos := x.placeOf least }).put F.CRS_CKPT_COMMITTED least

/-- RESUME_COURSE is announced once every module is READY at the committed checkpoint (R283). -/
def Dev.announceResume (z : Fixed) (d : Dev) : Dev :=
  let k := d.get F.CRS_CKPT_COMMITTED
  if d.suspended && !d.jobFailed && d.crs.resume.isNone && decide (k ≠ allOnes) && decide (d.seenReports ≠ []) &&
    d.seenReports.all (fun r => r.ready = some k) then
    let r := d.course + plLead d.plan
    (d.modCrs fun x => { x with resume := some r }).notice z noticeResumeAnnounced 0 r
  else d

/-- The 64 bytes of a keystone word (R266). -/
def Dev.keystoneBytes (d : Dev) : List Byte :=
  let susp : Bool := d.suspended || d.crs.suspends.isSome
  let pend := d.bit F.CRS_PACE_PENDING
  leBytes 64 (d.get F.CRS_ANCHOR_COURSE + d.get F.CRS_ANCHOR_TIME * 2 ^ 64 + d.get F.CRS_LEN_LEN * 2 ^ 128 +
    (b01 pend + 2 * b01 (decide (d.role = roleActing)) + 4 * b01 susp + 8 * b01 d.crs.resume.isSome +
      16 * d.get F.CRS_JOB_FAILED + 32 * d.get F.CRS_PACE_LIMITED) * 2 ^ 144 +
    (if pend then d.get F.CRS_PACE_NEW_LEN else 0) * 2 ^ 160 + (if pend then d.get F.CRS_PACE_EFFECTIVE else 0) * 2 ^ 192 +
    d.get F.CRS_CKPT_COMMITTED * 2 ^ 256 + d.crs.committedPos * 2 ^ 320 + d.crs.suspends.getD 0 * 2 ^ 336 + d.crs.resume.getD 0 * 2 ^ 384)

/-- KEYSTONE_WORD_SEND: the keystone, or the successor acting as keystone, decides and sends its word (R267, R278). -/
def Dev.keystoneSend (z : Fixed) (d : Dev) : Dev :=
  if !d.joined || d.crs.active.isNone || !(d.role = roleKeystone || d.role = roleActing) || d.crs.wordSent = some d.course then d
  else
    let p := d.plan
    let d := d.reach (d.courseAt (plKeystoneOff p))
    let d := d.paceDecision.commitCheckpoint
    let d := match d.crs.suspends with
      | some m => if d.suspended || d.crs.suspendDue.isSome then d else d.modCrs fun x => { x with suspendDue := some m }
      | none => d
    let d := d.announceResume z
    (d.sendWord z 3 (plJobGroup p) d.keystoneBytes).modCrs fun x => { x with wordSent := some d.course }

/-- KEYSTONE_WORD_SEND (R278). -/
def execKeystoneWordSend (s : State) : Host.Outcome State Fault Refusal := s.upd fun z d => d.keystoneSend z

/-- A member takes what a keystone word says (R274, R279, R282 to R284). -/
def Dev.takeWord (z : Fixed) (d : Dev) (w src : Nat) : Dev :=
  let d := d.modCrs fun x => { x with wordIn := true }
  let same : Bool := fld w 0 0 64 = d.get F.CRS_ANCHOR_COURSE && fld w 8 0 64 = d.get F.CRS_ANCHOR_TIME && fld w 16 0 9 = d.get F.CRS_LEN_LEN
  let d := if same then d else d.lastingFailure 4 0 src
  let pend := fld w 18 0 1
  let d := d.puts [(F.CRS_PACE_PENDING, pend), (F.CRS_PACE_LIMITED, fld w 18 5 1), (F.CRS_CKPT_COMMITTED, fld w 32 0 64)]
  let d := if pend = 1 then d.puts [(F.CRS_PACE_NEW_LEN, fld w 20 0 9), (F.CRS_PACE_EFFECTIVE, fld w 24 0 64)] else d
  let d := d.modCrs fun x => { x with committedPos := fld w 40 0 12 }
  let d := if fld w 18 2 1 = 1 && !d.suspended && d.crs.suspendDue.isNone then
    d.modCrs fun x => { x with suspendDue := some (fld w 42 0 10) } else d
  let d := if fld w 18 3 1 = 1 && d.crs.resume.isNone then
    (d.modCrs fun x => { x with resume := some (fld w 48 0 64) }).notice z noticeResumeAnnounced 0 (fld w 48 0 64) else d
  if fld w 18 4 1 = 1 then d.jobFail z else d

/-- Whether a keystone word has its length and no reserved bit (R9, R266). -/
def wordOk (fr : EthFrame) : Bool :=
  fr.data.length = 96 && frPay fr 17 1 7 = 0 && frPay fr 18 6 2 = 0 && frPay fr 19 0 8 = 0 && frPay fr 21 1 7 = 0 && frPay fr 22 0 16 = 0 &&
    frPay fr 41 4 4 = 0 && frPay fr 43 2 6 = 0 && frPay fr 44 0 32 = 0 && frPay fr 56 0 64 = 0

/-- A member finds that the keystone's plan is not its own, although both have passed the course of the swap: FAIL_CAUSE 0x5 (R265, R274; log entry 272: DEDUCED). -/
def Dev.comparePlan (d : Dev) (course planId src : Nat) : Dev :=
  if planId ≠ d.get F.CRS_PLAN_ACTIVE_ID ∧ d.crs.since ≤ course then d.lastingFailure 5 0 src else d

/-- The first word with TAKEOVER: from now on `src` alone acts as keystone, and a keystone becomes a member (R275, R285). -/
def Dev.takenOver (z : Fixed) (d : Dev) (src : Nat) : Dev :=
  if d.crs.acting.isSome then d
  else ((if d.role = roleKeystone then d.put F.CRS_JOB_ROLE roleMember else d).modCrs fun x => { x with acting := some src }).notice z noticeTakeover 0 d.course

/-- KEYSTONE_FRAME: from the plan's keystone until a word with TAKEOVER comes, then from the acting keystone only (R275); the first copy counts (R267). -/
def Dev.keystoneFrame (z : Fixed) (d : Dev) (p : Nat) (fr : EthFrame) : Dev :=
  let src := frHdr fr 4 0 10
  let w := leNat (fr.data.drop 32)
  let takeover : Bool := fld w 18 1 1 = 1
  let take := fun (d : Dev) => if d.crs.wordIn then d else (d.comparePlan (frHdr fr 8 0 64) (frHdr fr 24 0 16) src).takeWord z w src
  if !d.frMine fr || !wordOk fr then d.bump (F.FAB_PORT_CNT_DROPPED p) 1
  else if d.role = roleActing || d.crs.active.isNone then d
  else if takeover then (if src = d.crs.acting.getD (plSuccessor d.plan) then take (d.takenOver z src) else d)
  else if d.crs.acting.isSome || decide (src ≠ plKeystone d.plan) || d.role = roleKeystone then d
  else take d

/-- KEYSTONE_FRAME (R274). -/
def execKeystoneFrame (p : Fin 2) (fr : EthFrame) (ns : Nat) (s : State) : Host.Outcome State Fault Refusal := s.upd fun z d =>
  (d.elapse ns).takeFrame z p.val 3 fr id fun d => d.keystoneFrame z p.val fr

/-- KEYSTONE_TAKEOVER: the successor has missed keystone words for TAKEOVER courses (R275). -/
def Dev.takeover (z : Fixed) (d : Dev) : Dev :=
  if !d.joined || decide (d.role ≠ roleSuccessor) || decide (d.crs.missedWords < plTakeover d.plan) || d.jobFailed then d
  else
    let d := (d.put F.CRS_JOB_ROLE roleActing).modCrs fun x => { x with acting := some d.ownModule, suspends := if d.suspended then x.suspends else some (plKeystone d.plan) }
    d.notice z noticeTakeover 0 d.course

/-- KEYSTONE_TAKEOVER (R275). -/
def execKeystoneTakeover (s : State) : Host.Outcome State Fault Refusal := s.upd fun z d => d.takeover z

end Sys2Proof.Machine
end

