-- ==== Sys2Proof/Machine/Service.lean ====
section
/-! DEFINITION. Sys2Proof/Machine/Service.lean: fuse burns and life cycle (R29, R356 to R359, R362, R363), service commands (R360, R361), tamper (R364), SPDM
(R365 to R367) and the log ring (R354, R355). -/
namespace Sys2Proof.Machine

open Sys2Proof

/-! ### Stages, results, processors -/

/-! STAGE codes (R335). -/
def stageROM : Nat := 0
def stageLOADER : Nat := 1
def stageOPEN : Nat := 2
def stageFETCHING : Nat := 3
def stageVERIFYING : Nat := 4
def stageVERIFIED : Nat := 5
def stageSTARTING_FW : Nat := 6
def stageTRAINING : Nat := 7
def stageCLEARING : Nat := 8
def stageNEGOTIATING : Nat := 9
def stageREADY : Nat := 0xA
def stageRECOVERY : Nat := 0xB
def stageHALTED : Nat := 0xF

/-! RESULT codes (FW_MBOX_STATUS). -/
def resOK : Nat := 0
def resBadFormat : Nat := 1
def resBadType : Nat := 2
def resTooLarge : Nat := 3
def resKeyNotTrusted : Nat := 4
def resSvnTooLow : Nat := 5
def resLcNotAllowed : Nat := 6
def resSignatureInvalid : Nat := 7
def resDigestMismatch : Nat := 8
def resFetchFailed : Nat := 9
def resWrongStage : Nat := 0xA
def resFlashError : Nat := 0xB
def resAuthFailed : Nat := 0xC
def resNotPermitted : Nat := 0xD
def resBurnFailed : Nat := 0xE

/-! Life-cycle state codes (R358). -/
def lcBLANK : Nat := 0
def lcTEST : Nat := 1
def lcPROVISIONED : Nat := 2
def lcDEPLOYED : Nat := 3
def lcRETURN : Nat := 4
def lcSCRAPPED : Nat := 5

def Dev.stage (d : Dev) : Nat := d.get F.FW_MBOX_STATUS_STAGE
def Dev.setStage (d : Dev) (n : Nat) : Dev := d.put F.FW_MBOX_STATUS_STAGE n
def Dev.setResult (d : Dev) (r : Nat) : Dev := d.put F.FW_MBOX_STATUS_RESULT r
def Dev.lifeCycle (d : Dev) : Nat := d.get F.LCS_STATE_STATE
def Dev.procOn (d : Dev) (k : Nat) : Bool := d.get (F.FW_PROC_STATE_STATE k) = codeON
def Dev.modFw (d : Dev) (f : FwS → FwS) : Dev := { d with fw := f d.fw }

/-- Whether Helam processor 0 runs: the ROM or the loader until RELEASE, the runtime firmware once it is ON (R336, R351). -/
def Dev.proc0Runs (d : Dev) : Bool := d.procOn 0 || decide (d.stage < 6) || decide (d.stage = stageRECOVERY) || decide (d.stage = stageHALTED)

/-- End a mailbox command. -/
def Dev.mboxEnd (d : Dev) (r : Nat) : Dev := ((d.put F.FW_MBOX_STATUS_BUSY 0).setResult r).modFw fun f => { f with fetch := none, retried := false }

/-! ### Fuse requests (R29, R357) -/

/-- BURNING, CHANGING and TARGET show the request in progress. -/
def Dev.showBurn (d : Dev) : Dev :=
  let t : Option Nat := match d.fw.burns with
    | (.lifeCycle t, _) :: _ => some t
    | _ => none
  d.puts [(F.FUSE_STATUS_BURNING, b01 (d.fw.burns ≠ [])), (F.LCS_STATE_CHANGING, b01 t.isSome), (F.LCS_STATE_TARGET, t.getD 0)]

/-- A fuse request enters the queue of Helam processor 0; `waits`: the mailbox waits for its end. -/
def Dev.askBurn (d : Dev) (b : Burn) (waits : Bool) : Dev := (d.modFw fun f => { f with burns := f.burns ++ [(b, waits)] }).showBurn

/-- The field of a burn, as FUSE_STATUS.FIELD names it. -/
def Burn.field : Burn → Nat
  | .lifeCycle _ => 1
  | .revoke _ => 2
  | .rootSlot _ _ => 2
  | .svn _ => 3
  | .identity => 4
  | .candidates => 5

/-- The requested bits of a burn, as its mask numbers them. -/
def Burn.need (f : Fuses) (scalar ncand : Nat) : Burn → Nat
  | .lifeCycle _ => 1
  | .revoke _ => 1
  | .svn n => 2 ^ (n - f.svn) - 1
  | .candidates => 2 ^ ncand - 1
  | .rootSlot _ h => h + 2 ^ 256
  | .identity => scalar + publicKey scalar * 2 ^ 256

/-- Draw four free words as one number. -/
def Dev.draw256 (d : Dev) : Nat × Dev :=
  ((List.range 4).foldl (fun a i => a + (Config.freeWord (d.free + i)).toNat * 2 ^ (64 * i)) 0, { d with free := d.free + 4 })

/-- After every SERVICE command the nonce takes a new random value (R361). -/
def Dev.newNonce (d : Dev) : Dev := { d.puts (nonceFields d.free) with free := d.free + 4 }

/-- The end of a SERVICE command. -/
def Dev.serviceEnd (d : Dev) (r : Nat) : Dev := ((d.mboxEnd r).modFw fun f => { f with service := none }).newNonce

/-- A life-cycle state takes effect (R207, R359): the wipe starts, then LCS_STATE shows it; DEPLOYED closes the debug port (R361). -/
def Dev.enterLifeCycle (d : Dev) (code : Nat) : Dev :=
  let d := (d.wipeAll wipeLifeCycle).put F.LCS_STATE_STATE code
  let d := if code = lcDEPLOYED then d.put F.LCS_STATE_DEBUG_OPEN 0 else d
  d.fwEvent F.FW_EVENT_LC_CHANGE

/-- Candidates that read as burned leave the list (R409). -/
def Dev.dropCandidates (d : Dev) (mask : Nat) : Dev :=
  let slots := (List.range 256).filter fun i => bitsAt (d.get (F.HLT_CAND_DATA i)) 7 1 = 1
  let gone := masked mask slots
  (gone.foldl (fun d i => d.put (F.HLT_CAND_DATA i) (setBitAt (d.get (F.HLT_CAND_DATA i)) 7 false)) d).put F.FUSE_REPAIR_CANDIDATES
    (d.get F.FUSE_REPAIR_CANDIDATES - gone.length)

/-- FUSE_BURN: the oldest request is burned, read back and burned once more; the bits of `mask` read as burned (R357). -/
def fuseBurn (z : Fixed) (d : Dev) (mask : Nat) : Fixed × Dev :=
  if !d.proc0Runs then (z, d) else
  match d.fw.burns with
  | [] => (z, d)
  | (b, waits) :: rest =>
    let (w, d) := if b = .identity then d.draw256 else (0, d)
    let scalar := w % (p256N - 1) + 1
    let need := b.need z.fuse scalar d.candidates.length
    let ok : Bool := decide (mask &&& need = need)
    let z := { z with fuse := z.fuse.burn b mask scalar d.candidates }
    let rest := if b = .identity && !ok then rest.filter (fun x => x.1 ≠ .lifeCycle lcPROVISIONED) else rest
    let d := (d.modFw fun f => { f with burns := rest }).showBurn
    let d := (d.puts [(F.FUSE_STATUS_LAST_FAILED, b01 !ok), (F.FUSE_STATUS_FIELD, b.field)]).bump F.FUSE_CNT_BURNS 1
    let d := match b with
      | .lifeCycle _ => if ok then d.enterLifeCycle z.fuse.lifeCycle else d
      | .revoke i => if ok then
          (d.put F.FUSE_ROOT_STATUS_REVOKED (setBitAt (d.get F.FUSE_ROOT_STATUS_REVOKED) i true)).fwEvent F.FW_EVENT_REVOKED else d
      | .candidates => d.dropCandidates mask
      | _ => d
    (z, if waits then d.serviceEnd (if ok then resOK else resBurnFailed) else d)

/-- FUSE_BURN (R357). -/
def execFuseBurn (mask : BitVec 1024) (s : State) : Host.Outcome State Fault Refusal := s.updFixed fun z d => fuseBurn z d mask.toNat

/-- Whether the directory of the flash is one: MAGIC, version, reserved bytes (R337). -/
def Flash.dirOk (f : Flash) : Bool := fld f.dir 0 0 32 = 0x44465950 && fld f.dir 4 0 16 = 1 && fld f.dir 6 0 464 = 0

/-- The region that a directory entry names, by its offset and type (R337). -/
def Flash.entry (f : Flash) (i : Nat) : Option Region3 :=
  let off := fld f.dir (64 + 16 * i) 0 32
  let type := fld f.dir (72 + 16 * i) 0 8
  if 8 ≤ i then none
  else if off = 0x1000 ∧ type = 1 then some .loader
  else if off = 0x200000 then some .identity
  else if off = 0x240000 ∧ type = 3 then some .config
  else none

/-- Whether the directory names a region. -/
def Flash.names (f : Flash) (r : Region3) : Bool := f.dirOk && (List.range 8).any fun i => f.entry i = some r

def Flash.region (f : Flash) : Region3 → List Byte
  | .loader => f.loader
  | .identity => f.identity
  | .config => f.config

/-- Where a region starts, and its size (R337). -/
def Region3.off : Region3 → Nat
  | .loader => 0x1000
  | .identity => 0x200000
  | .config => 0x240000
def Region3.size : Region3 → Nat
  | .loader => 0x1FF000
  | _ => 0x40000

/-- A byte of the 64 MiB device; an erased one reads 0xFF (R337; log entry 275: PRESUMED). -/
def Flash.byte (f : Flash) (a : Nat) : Option Byte :=
  if 2 ^ 26 ≤ a then none
  else if a < 192 then some (BitVec.ofNat 8 (fld f.dir a 0 8))
  else match ([.loader, .identity, .config] : List Region3).find? fun r => decide (r.off ≤ a) && decide (a < r.off + r.size) with
    | some r => some (nth 0xFF (f.region r) (a - r.off))
    | none => some 0xFF

/-- A directory entry's region is erased and written (R337); what does not fit the region is not written. -/
def Dev.flashWrite (d : Dev) (entry : Nat) (data : List Byte) : Dev :=
  match d.flash.entry entry with
  | none => d
  | some r =>
    if r.size < data.length then d
    else { d with flash := match r with
      | .loader => { d.flash with loader := data }
      | .identity => { d.flash with identity := data }
      | .config => { d.flash with config := data } }

/-- A request at the factory test port (R359, R362, R363). -/
def Dev.factory (d : Dev) (c : FactoryCmd) : Dev :=
  let lc := d.lifeCycle
  match c with
  | .rootSlot i h => if lc = lcTEST ∨ lc = lcPROVISIONED then d.askBurn (.rootSlot i.val h.toNat) false else d
  | .lifeCycle t =>
    if lc = lcBLANK ∧ t.val = lcTEST then d.askBurn (.lifeCycle lcTEST) false
    else if lc = lcTEST ∧ t.val = lcPROVISIONED ∧ bitsAt (d.get F.FUSE_ROOT_STATUS_VALID) 0 1 = 1 then
      (d.askBurn .identity false).askBurn (.lifeCycle lcPROVISIONED) false
    else if (lc = lcBLANK ∨ lc = lcTEST) ∧ t.val = lcSCRAPPED then d.askBurn (.lifeCycle lcSCRAPPED) false
    else d
  | .flash e data => if lc ≤ lcPROVISIONED then d.flashWrite e.val data else d

/-- FACTORY_TEST_COMMAND (R359). -/
def execFactoryTestCommand (c : FactoryCmd) (s : State) : Host.Outcome State Fault Refusal := s.upd fun _ d => d.factory c

/-! ### Images (R339 to R341) -/

/-- Bytes `a` to `a + n - 1` of an image. -/
def imgAt (b : List Byte) (a n : Nat) : List Byte := (b.drop a).take n
def imgNat (b : List Byte) (a n : Nat) : Nat := leNat (imgAt b a n)
def imgZero (b : List Byte) (a n : Nat) : Bool := imgNat b a n = 0

/-- A section of an image (R340). -/
structure Section where
  target : Nat
  off : Nat
  bytes : Nat
  load : Nat
  digest : List Byte
  deriving DecidableEq, Repr

def imgSections (b : List Byte) : List Section :=
  (List.range (imgNat b 24 2)).map fun i =>
    let a := 256 + 48 * i
    { target := imgNat b a 1, off := imgNat b (a + 4) 4, bytes := imgNat b (a + 8) 4, load := imgNat b (a + 12) 4, digest := imgAt b (a + 16) 32 }

/-- The RAM of processor `k` is cleared, and the sections of an image for it copied there (R340, R351). -/
def Dev.loadRam (d : Dev) (k : Nat) (b : List Byte) : Dev :=
  d.modFw fun f => { f with ram := tset f.ram k (((imgSections b).filter fun s => s.target = k).map fun s => (s.load, imgAt b s.off s.bytes)) }

/-- A byte of a processor's RAM: that of the section copied last over it, else zero. -/
def FwS.ramByte (f : FwS) (k a : Nat) : Byte :=
  match (tget [] f.ram k).reverse.find? fun p => decide (p.1 ≤ a) && decide (a < p.1 + p.2.length) with
  | some p => nth 0 p.2 (a - p.1)
  | none => 0

/-- Whether every section for processor `k` in the image store has its DIGEST (R351). -/
def Dev.sectionsHold (d : Dev) (k : Nat) : Bool :=
  ((imgSections d.fw.image).filter fun s => s.target = k).all fun s => sha256 (imgAt d.fw.image s.off s.bytes) = s.digest

/-- A section entry within its bounds (R340). -/
def Section.ok (s : Section) (len : Nat) : Bool :=
  (decide (s.target ≤ 5) || decide (s.target = 0xF)) && decide (s.off % 64 = 0) && decide (s.off + s.bytes ≤ len) &&
    (if s.target = 0xF then decide (s.load = 0) else decide (s.load + s.bytes ≤ 2 ^ 21))

/-- Whether the sections of an image are those that its type asks for (R340): one of a loader, some for each processor of a runtime image. -/
def sectionsFor (type : Nat) (l : List Section) : Bool :=
  if type = 1 then decide ((l.map (·.target)) = [0])
  else if type = 2 then (List.range 6).all fun k => l.any fun s => s.target = k
  else true

/-- MAGIC, FORMAT, reserved fields, SECTIONS and section bounds of an image (R341). -/
def imageFormatOk (b : List Byte) : Bool :=
  decide (256 ≤ b.length) && imgNat b 0 4 = 0x4D495950 && imgNat b 4 2 = 1 && imgZero b 7 1 && decide (imgNat b 20 1 < 64) && imgZero b 21 3 &&
    imgZero b 26 6 && imgZero b 128 32 && imgZero b 224 32 && decide (1 ≤ imgNat b 24 2) && decide (imgNat b 24 2 ≤ 32) &&
    decide (256 + 48 * imgNat b 24 2 ≤ b.length) && ((List.range (imgNat b 24 2)).all fun i => imgZero b (257 + 48 * i) 3) &&
    ((imgSections b).all fun s => s.ok b.length) && sectionsFor (imgNat b 6 1) (imgSections b)

/-- The largest image of a type (R337, R339). -/
def imageLimit : Nat → Nat
  | 1 => 2 ^ 20
  | 2 => 2 ^ 24
  | _ => 2 ^ 18

/-- The hash of a root slot as the fuse shadow shows it, in digest order. -/
def Dev.slotHash (d : Dev) (i : Nat) : List Byte := (List.range 4).flatMap fun j => leBytes 8 (d.get (F.FUSE_ROOT_HASH_HASH i j))

/-- Active root slots: VALID and not REVOKED (R362). -/
def Dev.activeSlots (d : Dev) : List Nat :=
  (List.range 4).filter fun i => bitsAt (d.get F.FUSE_ROOT_STATUS_VALID) i 1 = 1 && bitsAt (d.get F.FUSE_ROOT_STATUS_REVOKED) i 1 = 0

/-- Whether an active root slot holds the hash of a key. -/
def Dev.rootKey (d : Dev) (key : List Byte) : Bool := d.activeSlots.any fun i => d.slotHash i = sha256 key

/-- Verify an image of a type: RESULT of the first failing check, or OK (R341). -/
def Dev.verifyImage (d : Dev) (type : Nat) (b : List Byte) : Nat :=
  let lc := d.lifeCycle
  let key := imgAt b 32 64
  if !imageFormatOk b then resBadFormat
  else if imgNat b 6 1 ≠ type then resBadType
  else if imageLimit type < imgNat b 8 4 ∨ imgNat b 8 4 ≠ b.length then resTooLarge
  else if !(d.rootKey key || ((lc = lcTEST || lc = lcRETURN) && sha256 key = Config.manufacturingHash)) then resKeyNotTrusted
  else if imgNat b 12 4 < d.get F.FUSE_SVN_SVN then resSvnTooLow
  else if bitsAt (imgNat b 20 1) lc 1 = 0 then resLcNotAllowed
  else if !ecdsaOk key (sha256 (b.take 160)) (imgAt b 160 64) then resSignatureInvalid
  else if sha256 (b.drop 256) ≠ imgAt b 96 32 then resDigestMismatch
  else if (imgSections b).any fun s => sha256 (imgAt b s.off s.bytes) ≠ s.digest then resDigestMismatch
  else resOK

/-! ### Certificates (R337, R361) -/

/-- The first DER element of a list of bytes: its length with its header (log entry 60: PRESUMED, unsafe). -/
def derLength (b : List Byte) : Option Nat :=
  match b with
  | _ :: l :: t =>
    let n := l.toNat
    if n < 128 then some (2 + n)
    else
      let k := n - 128
      if 1 ≤ k ∧ k ≤ 4 ∧ k ≤ t.length then some (2 + k + beNat (t.take k)) else none
  | _ => none

/-- Split a chain into its certificates; `fuel` bounds their count. -/
def derSplit : Nat → List Byte → Option (List (List Byte))
  | _, [] => some []
  | 0, _ => none
  | fuel + 1, b =>
    if b.head? ≠ some 0x30 then none
    else match derLength b with
      | none => none
      | some n => if b.length < n then none else (derSplit fuel (b.drop n)).map fun r => b.take n :: r

/-- Whether a list of bytes holds another. -/
def holds (l : List Byte) : List Byte → Bool
  | [] => l = []
  | b :: t => l.isPrefixOf (b :: t) || holds l t

/-- A certificate chain for the identity region: at most 8 certificates of at most 4 KiB, the last of which holds FUSE_ID_PUBKEY. -/
def Dev.chainOk (d : Dev) (b : List Byte) : Bool :=
  match derSplit 8 b with
  | none => false
  | some l => match l.getLast? with
    | none => false
    | some c => l.all (fun x => decide (x.length ≤ 4096)) && holds ((List.range 8).flatMap fun j => leBytes 8 (d.get (F.FUSE_ID_PUBKEY_KEY j))) c

/-! ### Service commands (R360 to R362) -/

def opLcAdvance : Nat := 1
def opRevokeSlot : Nat := 2
def opSvnAdvance : Nat := 3
def opBurnCandidates : Nat := 4
def opFlashWrite : Nat := 5
def opDebugUnlock : Nat := 6

/-- The format of a service command (R360). -/
def serviceFormatOk (b : List Byte) : Bool :=
  let op := imgNat b 4 1
  decide (256 ≤ b.length) && imgNat b 0 4 = 0x56535950 && decide (1 ≤ op) && decide (op ≤ 6) && imgZero b 6 2 && imgZero b 56 8 &&
    imgZero b 224 32 && decide (imgNat b 52 4 ≤ 2 ^ 21) && decide (256 + imgNat b 52 4 = b.length) &&
    (op = opFlashWrite || imgZero b 52 4) && (op = opSvnAdvance || imgZero b 48 4) && (op ≠ opRevokeSlot || decide (imgNat b 5 1 ≤ 3))

/-- The transitions that LC_ADVANCE may ask for (R359). -/
def lcMayAdvance (lc t : Nat) : Bool :=
  (lc = lcPROVISIONED && t = lcDEPLOYED) || ((lc = lcPROVISIONED || lc = lcDEPLOYED) && t = lcRETURN) ||
    ((lc = lcPROVISIONED || lc = lcDEPLOYED || lc = lcRETURN) && t = lcSCRAPPED)

/-- The precondition of the operation of a service command (R361, R362). -/
def Dev.servicePre (d : Dev) (b : List Byte) : Bool :=
  let op := imgNat b 4 1
  let arg := imgNat b 5 1
  if op = opLcAdvance then lcMayAdvance d.lifeCycle arg
  else if op = opRevokeSlot then
    d.activeSlots ≠ [arg] && d.slotHash arg ≠ sha256 (imgAt b 96 64)
  else if op = opSvnAdvance then decide (d.get F.FUSE_SVN_SVN < imgNat b 48 4) && decide (imgNat b 48 4 ≤ d.get F.FW_VERSION_SVN)
  else if op = opBurnCandidates then (List.range 4).all fun p => d.partState p = codeOFF
  else if op = opFlashWrite then match d.flash.entry arg with
    | some .loader => d.verifyImage 1 (b.drop 256) = resOK
    | some .config => d.verifyImage 3 (b.drop 256) = resOK
    | some .identity => d.chainOk (b.drop 256)
    | none => false
  else d.lifeCycle = lcPROVISIONED

/-- The nonce as a service command holds it. -/
def Dev.nonce (d : Dev) : Nat := leNat ((List.range 4).flatMap fun i => leBytes 8 (d.get (F.FW_SVC_NONCE_NONCE i)))

/-- The checks of a service command, in order (R361). -/
def Dev.serviceCheck (d : Dev) (b : List Byte) : Nat :=
  let key := imgAt b 96 64
  let free : Bool := imgNat b 4 1 = opBurnCandidates
  if !serviceFormatOk b then resBadFormat
  else if imgNat b 8 8 ≠ d.get F.FUSE_SERIAL_SERIAL ∨ imgNat b 16 32 ≠ d.nonce then resAuthFailed
  else if !free && !d.rootKey key then resKeyNotTrusted
  else if !free && !ecdsaOk key (sha256 (b.take 160)) (imgAt b 160 64) then resSignatureInvalid
  else if sha256 (b.drop 256) ≠ imgAt b 64 32 then resDigestMismatch
  else if !d.servicePre b then resNotPermitted
  else resOK

/-- Perform a service command; a burn ends it later. -/
def Dev.servicePerform (d : Dev) (b : List Byte) (flashOk : Bool) : Dev :=
  let r := d.serviceCheck b
  let op := imgNat b 4 1
  let arg := imgNat b 5 1
  if r ≠ resOK then d.serviceEnd r
  else if op = opLcAdvance then d.askBurn (.lifeCycle arg) true
  else if op = opRevokeSlot then d.askBurn (.revoke arg) true
  else if op = opSvnAdvance then d.askBurn (.svn (imgNat b 48 4)) true
  else if op = opBurnCandidates then (if d.candidates = [] then d.serviceEnd resOK else d.askBurn .candidates true)
  else if op = opFlashWrite then
    (if flashOk then (d.flashWrite arg (b.drop 256)).serviceEnd resOK else d.serviceEnd resFlashError)
  else (d.put F.LCS_STATE_DEBUG_OPEN 1).serviceEnd resOK

/-- The bytes of a service command have arrived: performed, or kept until Helam processor 0 is ON (R352). -/
def Dev.serviceArrives (d : Dev) (b : List Byte) (flashOk : Bool) : Dev :=
  let d := d.modFw fun f => { f with fetch := none, service := some (b, flashOk) }
  if d.procOn 0 then (d.modFw fun f => { f with service := none }).servicePerform b flashOk else d

/-- A mailbox command that is not performed (R343). -/
def Dev.wrongStage (d : Dev) : Dev := d.setResult resWrongStage

/-- Begin to fetch what FW_MBOX_IMAGE_ADDR and FW_MBOX_IMAGE_BYTES name (R344). -/
def Dev.beginFetch (d : Dev) : Dev :=
  let a := d.get F.FW_MBOX_IMAGE_ADDR_ADDR
  let n := d.get F.FW_MBOX_IMAGE_BYTES_BYTES
  ((d.put F.FW_MBOX_STATUS_BUSY 1).modFw fun f => { f with fetch := some (a, n), retried := false }).emit (.hostRead 0 a n)

/-- Whether the mailbox takes a command of a stage now. -/
def Dev.mboxTakes (d : Dev) (stage : Nat) : Bool := d.stage = stage && !d.bit F.FW_MBOX_STATUS_BUSY

/-- CMD = SERVICE (R343, R347). -/
def Dev.serviceBegin (d : Dev) : Dev := if d.mboxTakes stageREADY && d.feature 3 then d.beginFetch else d.wrongStage

/-- Whether a requester writes the mailbox: the physical function, in RECOVERY too (R336, R343). -/
def Dev.pfWrites (d : Dev) (q : Requester) : Bool := q = .fn 0 && !d.host.d3.contains 0

/-- A service command of one operation: the physical function writes CMD = SERVICE, unless one is being fetched, and the bytes arrive, or both reads fail. -/
def Dev.service (d : Dev) (op : Nat) (q : Requester) (img : Option (List Byte)) (flashOk : Bool) : Dev :=
  let waits : Bool := d.stage = stageREADY && d.fw.fetch.isSome
  if !waits && !d.pfWrites q then d
  else
    let d1 := if waits then d else d.serviceBegin
    match d1.fw.fetch, img with
    | none, _ => d1
    | some (a, n), none => ((d1.emit (.hostRead 0 a n)).mboxEnd resFetchFailed).newNonce
    | some (_, n), some b =>
      if b.length ≠ n ∨ (serviceFormatOk b ∧ imgNat b 4 1 ≠ op) then d else d1.serviceArrives b flashOk

/-- LC_ADVANCE (R359, R361). -/
def execLcAdvance (q : Requester) (img : Option (List Byte)) (s : State) : Host.Outcome State Fault Refusal :=
  s.upd fun _ d => d.service opLcAdvance q img true

/-- REVOKE_SLOT (R362). -/
def execRevokeSlot (q : Requester) (img : Option (List Byte)) (s : State) : Host.Outcome State Fault Refusal :=
  s.upd fun _ d => d.service opRevokeSlot q img true

/-- SVN_ADVANCE (R362). -/
def execSvnAdvance (q : Requester) (img : Option (List Byte)) (s : State) : Host.Outcome State Fault Refusal :=
  s.upd fun _ d => d.service opSvnAdvance q img true

/-- BURN_CANDIDATES (R361, R409). -/
def execBurnCandidates (q : Requester) (img : Option (List Byte)) (s : State) : Host.Outcome State Fault Refusal :=
  s.upd fun _ d => d.service opBurnCandidates q img true

/-- FLASH_WRITE (R361). -/
def execFlashWrite (q : Requester) (img : Option (List Byte)) (flashOk : Bool) (s : State) : Host.Outcome State Fault Refusal :=
  s.upd fun _ d => d.service opFlashWrite q img flashOk

/-- DEBUG_UNLOCK (R361). -/
def execDebugUnlock (q : Requester) (img : Option (List Byte)) (s : State) : Host.Outcome State Fault Refusal :=
  s.upd fun _ d => d.service opDebugUnlock q img true

/-! ### The log ring (R354, R355) -/

/-- A write of FW_LOG_CTRL (R347, R354): EN is not written while feature LOG_RING is off, and EN = 1 starts SEQ from 1. -/
def Dev.logControl (d : Dev) (v : Nat) : Dev :=
  let d := d.puts [(F.FW_LOG_CTRL_MIN_LEVEL, bitsAt v 1 3), (F.FW_LOG_CTRL_LOG2, bitsAt v 8 5)]
  if !d.feature 0 then d
  else
    let d := d.put F.FW_LOG_CTRL_EN (v % 2)
    if v % 2 = 1 then d.put F.FW_LOG_SEQ 0 else d

/-- LOG_ENABLE (R354). -/
def execLogEnable (q : Requester) (v : BitVec 32) (s : State) : Host.Outcome State Fault Refusal :=
  s.upd fun _ d => if d.barOpen q && fullAccess q then d.logControl v.toNat else d

/-- A record of a processor, 7 for hardware, is committed (R354, R355); `dropped`: its host write failed twice. -/
def Dev.logRecord (d : Dev) (proc level code a0 a1 : Nat) (dropped : Bool) : Dev :=
  let there : Bool := proc = 7 || (decide (proc < 6) && d.procOn proc)
  let traced : Bool := level ≠ 4 || (decide (proc < 6) && bitsAt (d.get (F.FW_TRACE_MASK_GROUPS proc)) (code / 4096 % 16) 1 = 1)
  if !(there && traced && d.logWritten level) then d
  else if dropped then (d.put F.FW_LOG_SEQ (d.get F.FW_LOG_SEQ + 1)).bump F.FW_LOG_CNT_DROPPED 1
  else d.logCommit proc level code a0 a1

/-- LOG_RECORD_COMMIT (R354). -/
def execLogRecordCommit (proc : Fin 8) (level : Fin 5) (code : BitVec 16) (a0 a1 : BitVec 64) (dropped : Bool) (s : State) :
    Host.Outcome State Fault Refusal := s.upd fun _ d => d.logRecord proc.val level.val code.toNat a0.toNat a1.toNat dropped

/-! ### Tamper (R364) -/

/-- One detector asserts. -/
def Dev.tamper (d : Dev) (bit : Nat) : Dev :=
  let d := d.wipeAll wipeTamper
  let d := (d.put F.LCS_TAMPER_LATCHED (setBitAt (d.get F.LCS_TAMPER_LATCHED) bit true)).bump F.LCS_CNT_TAMPER 1
  (d.modFw fun f => { f with sessions := [] }).fwEvent F.FW_EVENT_TAMPER

/-- TAMPER_DETECT: the detectors that assert now; those that did not assert before are events. -/
def Dev.tamperLive (d : Dev) (live : Nat) : Dev :=
  let was := d.get F.LCS_TAMPER_LIVE
  ((List.range 6).filter fun i => bitsAt live i 1 = 1 && bitsAt was i 1 = 0).foldl Dev.tamper (d.put F.LCS_TAMPER_LIVE live)

/-- TAMPER_DETECT (R364). -/
def execTamperDetect (live : BitVec 6) (s : State) : Host.Outcome State Fault Refusal := s.upd fun _ d => d.tamperLive live.toNat

/-- DEBUG_PORT_ACCESS (R364, R425): in DEPLOYED an access asserts the DEBUG detector. -/
def execDebugPortAccess (s : State) : Host.Outcome State Fault Refusal := s.upd fun _ d =>
  if d.lifeCycle = lcDEPLOYED then d.tamper 4 else d

/-! ### SPDM (R365 to R367) -/

/-! Response codes of SPDM 1.2 (log entry 60: PRESUMED, unsafe). -/
def spdmCertificate : Nat := 0x02
def spdmChallengeAuth : Nat := 0x03
def spdmMeasurements : Nat := 0x60
def spdmKeyExchangeRsp : Nat := 0x64
def spdmVendor : Nat := 0x7E
def spdmError : Nat := 0x7F

/-- An SPDM error of a code: 1 an invalid request, 3 busy, 4 an unexpected request, 5 unspecified. -/
def Dev.spdmFail (d : Dev) (code : Nat) : Dev := d.emit (.spdm spdmError [BitVec.ofNat 8 code])

/-- The endpoint's requests reach Helam processor 5: it has been ON in this boot and does not restart (R437). -/
def Dev.endpoint (d : Dev) : Bool := d.aux.served && d.procOn 5

/-- Whom a request reaches (R352, R365): over DOE it is answered with busy before READY and while processor 0 is absent; over MCTP it needs SPDM_MCTP and
processor 5. -/
def Dev.spdm (d : Dev) (via : SpdmVia) (serve : Dev → Dev) : Dev :=
  let ready : Bool := d.stage = stageREADY && d.procOn 0
  match via with
  | .doe => if ready then serve d else d.spdmFail 3
  | .mctp => if !(d.stage = stageREADY && d.feature 5 && d.endpoint) then d else if ready then serve d else d.spdmFail 3

/-- The value of a measurement block (R366). -/
def Dev.measurement (d : Dev) : Nat → List Byte
  | 1 => Config.romDigest
  | 2 => sha256 d.fw.loader
  | 3 => sha256 d.fw.image
  | 4 => leBytes 16 (d.lifeCycle + (d.get F.FUSE_ROOT_STATUS_VALID + d.get F.FUSE_ROOT_STATUS_REVOKED * 16) * 2 ^ 8 + d.get F.FUSE_SVN_SVN * 2 ^ 16 +
      d.get F.LCS_STATE_DEBUG_OPEN * 2 ^ 24 + d.get F.FW_FEAT_ON * 2 ^ 32 + d.get F.FUSE_SKU_CEILING_W * 2 ^ 96 + d.get F.FUSE_SKU_STEPPING * 2 ^ 112)
  | 5 => leBytes 16 (d.get F.LCS_CNT_TAMPER + d.get F.LCS_TAMPER_LATCHED * 2 ^ 64)
  | _ => []

def measurementBlock (i : Nat) (v : List Byte) : List Byte := BitVec.ofNat 8 i :: (leBytes 2 v.length ++ v)

/-- GET_MEASUREMENTS: one block, all of them (index 255), or how many there are (index 0), signed where asked. -/
def Dev.measurements (d : Dev) (index : Nat) (sign : Bool) : Dev :=
  if 5 < index ∧ index ≠ 255 then d.spdmFail 1
  else
    let body := if index = 0 then [5]
      else if index = 255 then [1, 2, 3, 4, 5].flatMap fun i => measurementBlock i (d.measurement i)
      else measurementBlock index (d.measurement index)
    let (sig, d) := if sign then d.freeBytes 64 else ([], d)
    d.emit (.spdm spdmMeasurements (body ++ sig))

/-- GET_MEASUREMENTS (R366). -/
def execGetMeasurements (via : SpdmVia) (index : BitVec 8) (sign : Bool) (s : State) : Host.Outcome State Fault Refusal := s.upd fun _ d =>
  d.spdm via fun d => d.measurements index.toNat sign

/-- Whether the identity key is usable (R358). -/
def Dev.identified (d : Dev) : Bool := d.lifeCycle = lcPROVISIONED || d.lifeCycle = lcDEPLOYED

/-- GET_CERTIFICATE: a portion of the chain of slot 0. -/
def Dev.certificate (d : Dev) (slot off len : Nat) : Dev :=
  if slot ≠ 0 ∨ !d.identified then d.spdmFail (if slot ≠ 0 then 1 else 5)
  else
    let rest := d.flash.identity.drop off
    let part := rest.take len
    d.emit (.spdm spdmCertificate (leBytes 2 part.length ++ leBytes 2 (rest.length - part.length) ++ part))

/-- GET_CERTIFICATE (R365). -/
def execGetCertificate (via : SpdmVia) (slot : BitVec 8) (off len : BitVec 16) (s : State) : Host.Outcome State Fault Refusal := s.upd fun _ d =>
  d.spdm via fun d => d.certificate slot.toNat off.toNat len.toNat

/-- CHALLENGE: answered with a signature by the identity key. -/
def Dev.challenge (d : Dev) (slot nonce : Nat) : Dev :=
  if slot ≠ 0 ∨ !d.identified then d.spdmFail (if slot ≠ 0 then 1 else 5)
  else
    let (sig, d) := d.freeBytes 64
    d.emit (.spdm spdmChallengeAuth (leBytes 32 nonce ++ sig))

/-- CHALLENGE (R365). -/
def execChallenge (via : SpdmVia) (slot : BitVec 8) (nonce : BitVec 256) (s : State) : Host.Outcome State Fault Refusal := s.upd fun _ d =>
  d.spdm via fun d => d.challenge slot.toNat nonce.toNat

/-- The die whose vault holds the keys of a session: the lowest sound one of a partition, or of the package for 4 (R367). -/
def vaultDie (z : Fixed) (d : Dev) (p : Nat) : Option Nat :=
  (List.range 4).find? fun die => (p = 4 || z.partOfDie die = p) && bitsAt (d.get F.POOL_VAULT_STATUS_FAULT) die 1 = 0

/-- KEY_EXCHANGE: a session for a partition, or for the whole package. -/
def Dev.keyExchange (z : Fixed) (d : Dev) (p : Nat) : Dev :=
  if !d.identified then d.spdmFail 5
  else match vaultDie z d p with
    | none => d.spdmFail 5
    | some die =>
      let d := d.modFw fun f => { f with sessions := f.sessions.filter (fun s => s ≠ (p, die)) ++ [(p, die)] }
      let (key, d) := d.freeBytes 128
      d.emit (.spdm spdmKeyExchangeRsp key)

/-- KEY_EXCHANGE (R367). -/
def execKeyExchange (via : SpdmVia) (p : Fin 5) (s : State) : Host.Outcome State Fault Refusal := s.upd fun z d =>
  d.spdm via fun d => d.keyExchange z p.val

/-- HOST_LINK shows the active IDE streams: the link stream, and how many selective ones. -/
def Dev.showStreams (d : Dev) : Dev :=
  d.puts [(F.HOST_LINK_IDE_LINK, b01 (d.fw.streams.any fun s => s.2 = 0)),
    (F.HOST_LINK_IDE_SEL, (d.fw.streams.filter fun s => s.2 ≠ 0).length)]

/-- IDE_KEY_PROGRAM: keys of a stream, 0 the link stream and 1 to 4 the selective ones, within a session. -/
def Dev.ideKey (z : Fixed) (d : Dev) (p stream : Nat) : Dev :=
  if !(d.fw.sessions.any fun s => s.1 = p) then d.spdmFail 4
  else if (vaultDie z d p).isNone then d.spdmFail 5
  else ((d.modFw fun f => { f with streams := f.streams.filter (fun s => s.2 ≠ stream) ++ [(p, stream)] }).showStreams).emit (.spdm spdmVendor [])

/-- IDE_KEY_PROGRAM (R365). -/
def execIdeKeyProgram (via : SpdmVia) (p stream : Fin 5) (s : State) : Host.Outcome State Fault Refusal := s.upd fun z d =>
  d.spdm via fun d => d.ideKey z p.val stream.val

end Sys2Proof.Machine
end

