-- ==== Sys2Proof/Machine/Enable.lean ====
section
/-! DEFINITION. Sys2Proof/Machine/Enable.lean: the enable state machine of every switchable function (R30 to R36): who writes EN, what STARTING clears (R33,
R67, R209, R236), what STOPPING does and when it is safe (R66, R211, R215, R239, R298, R329, R351), failed starts (R32); the partition layout (R297) and the
set-up lock (R301). -/
namespace Sys2Proof.Machine

open Sys2Proof

/-! ### Who writes EN -/

/-- Whether a requester's write of EN reaches a function (R295, R297, R349). -/
def enReaches (z : Fixed) (d : Dev) (q : Requester) (u : SwUnit) : Bool :=
  d.barOpen q && match q with
  | .fn f => (match u with
    | .ctx c => reachesCtx z q c.val
    | .proc _ => false
    | .cim _ m => f.val = 0 && m.val < 64
    | .bank _ m _ => f.val = 0 && m.val < 64
    | .part p => f.val = 0 && p.val < z.parts
    | _ => f.val = 0)
  | .proc k => (match u with
    | .cim _ m => m.val < 64 || k.val = 5
    | .bank _ m _ => m.val < 64 || k.val = 5
    | .proc j => k.val = 0 && j.val ≠ 0
    | .part p => p.val < z.parts
    | _ => true)
  | .testEngine => false

/-- Whether a context's partition is being stopped: EN = 1 is recorded, and the stop sets it back (R298, R334). -/
def Dev.partStops (d : Dev) : SwUnit → Bool
  | .ctx c => d.partState (enPart (d.entry c.val)) = codeSTOPPING
  | _ => false

/-- Whether a function may leave OFF: a context needs an owner, which is not in D3hot (R299, R333), and a partition that is not stopping (R334); a processor
left OFF stays OFF (R353). -/
def mayStart (z : Fixed) (d : Dev) : SwUnit → Bool
  | .ctx c => (match z.owner c.val with
    | some f => !d.host.d3.contains f
    | none => false) && !d.partStops (.ctx c)
  | .proc k => !d.bit (F.FW_PROC_STATUS_LASTING k.val)
  | _ => true

/-! ### Starting -/

/-- The halves of stacks that hold the wall space of a partition (R220): 2 × stack + half. -/
def Fixed.halvesOf (z : Fixed) (p : Nat) : List Nat :=
  (List.range 48).filter fun h => match z.layout with
    | 0 => true
    | 1 => h / 24 = p
    | _ => h / 24 = p / 2 && h % 2 = p % 2

/-- Zero the wall space that a partition owns (R220, R236). -/
def Dev.clearWall (z : Fixed) (d : Dev) (p : Nat) : Dev :=
  let hs := z.halvesOf p
  ({ d with wall := { d.wall with slots := d.wall.slots.filter fun t => !hs.contains (24 * t.wall + b01 (decide (50331648 ≤ t.stripe))) } }).zeroHalves hs

/-- Zero the die pools of a partition, their vaults by a wipe (R207, R209). -/
def Dev.clearPools (z : Fixed) (d : Dev) (p : Nat) : Dev :=
  ((List.range 4).filter fun die => z.partOfDie die = p).foldl (fun d die =>
    let d := (d.startWipe wipeClearing die).put (F.POOL_DP_STATUS_CLEARING die) 1
    { d with mem := Memory.clear d.mem (poolAddr die 0) vaultOff }) d

/-- The clearing of a function that passes from OFF to STARTING (R33). -/
def Dev.startWork (z : Fixed) (d : Dev) : SwUnit → Dev
  | .core n =>
    let d := d.put (F.POOL_SP_STATUS_CLEARING n.val) 1
    { d with mem := Memory.clear d.mem (scratchAddr n.val 0) 0x80000, core := terase d.core n.val }
  | .cim n m =>
    let d := (d.clearBankAll n.val m.val 0).clearBankAll n.val m.val 1
    (d.put (F.CIM_BANK_ACTIVE n.val m.val) 0).syncMaps n.val m.val
  | .bank n m b => d.clearBankAll n.val m.val b.val
  | .part p =>
    let d := d.clearPools z p.val
    if d.bit F.MEM_CLEAR_CLEARED then d else d.clearWall z p.val
  | .ctx c => d.modCtx c.val fun r => r
  | .proc k => (d.bump (F.FW_PROC_CNT_RESTARTS k.val) 1).loadRam k.val d.fw.image
  | _ => d

/-- CLEARING shows a clear of wall space that runs: that of a partition which starts, where the boot clear has not left it clear (R236). -/
def Dev.showClearing (d : Dev) : Dev :=
  d.put F.MEM_CLEAR_CLEARING (b01 (!d.bit F.MEM_CLEAR_CLEARED && (List.range 4).any fun p => d.partState p = codeSTARTING))

/-- The clearing of a function's SRAM is over as it leaves STARTING (R209). -/
def Dev.clearingOver (z : Fixed) (d : Dev) : SwUnit → Dev
  | .core n => d.put (F.POOL_SP_STATUS_CLEARING n.val) 0
  | .part p => d.puts (((List.range 4).filter fun die => z.partOfDie die = p.val).map fun die => (F.POOL_DP_STATUS_CLEARING die, 0))
  | _ => d

/-- A function goes to STARTING. -/
def Dev.startUnit (z : Fixed) (d : Dev) (u : SwUnit) : Dev :=
  let d := (d.puts [(swSTATE (unitWord u), codeSTARTING), (swPENDING (unitWord u), 0)]).startWork z u
  match u with
  | .part _ => d.showClearing
  | _ => d

/-! ### Stopping -/

/-- Contexts of a partition that are not OFF. -/
def Dev.partCtxs (d : Dev) (p : Nat) : List Nat :=
  (d.host.ctx.map (·.1)).filter fun c => enPart (d.entry c) = p && d.ctxState c ≠ codeOFF

/-- What follows when a Helam processor comes or goes (R325, R352). -/
def Dev.procChange (d : Dev) (k : Nat) : Dev :=
  match k with
  | 1 => d.busySync 0
  | 2 => d.busySync 1
  | 4 => d.put F.PWR_STATUS_GOV_ABSENT (b01 !d.governed)
  | _ => d

/-- A function in service goes to STOPPING. -/
def Dev.stopUnit (d : Dev) (u : SwUnit) : Dev :=
  let d := d.puts [(swSTATE (unitWord u), codeSTOPPING), (swPENDING (unitWord u), 0)]
  match u with
  | .core n => d.abandonTiles n.val
  | .ctx c => d.ctxStopping c.val
  | .part p => (d.partCtxs p.val).foldl (fun d c => d.ctxDisable c) d
  | .stack s => d.wallLose s.val
  | .proc k => d.procChange k.val
  | _ => d

/-- Whether a function that stops has reached its safe point. -/
def Dev.isSafe (d : Dev) : SwUnit → Bool
  | .ctx c => d.flightsOf c.val = [] && (d.ctxRun c.val).queue = []
  | .part p => d.partCtxs p.val = []
  | _ => true

/-- Abandon the write in flight on a macro, or on one bank of it, at the end of its row, and those that wait (R63, R65). -/
def Dev.abandonOn (d : Dev) (n m : Nat) (bank : Option Nat) : Dev :=
  let d := d.abortWaiting n m bank
  match (d.macroRun n m).write with
  | some j => if bank = none ∨ bank = some j.bank then d.abandonWrite n m j else d
  | none => d

/-- What a function gives up as it reaches its safe point. -/
def Dev.offWork (d : Dev) : SwUnit → Dev
  | .cim n m => (d.abandonOn n.val m.val none).loadSettled n.val
  | .bank n m b => (d.abandonOn n.val m.val (some b.val)).loadSettled n.val
  | .ctx c => d.ctxOff c.val
  | .port p => d.setLink p.val false
  | .stack s => d.loseContents [s.val]
  | .part p => ((d.host.ctx.map (·.1)).filter fun c => enPart (d.entry c) = p.val).foldl (fun d c => d.put (F.CTX_STATE_EN c) 0) d
  | _ => d

/-! ### Failed starts (R32) -/

/-- The failure record of the start of a bank of a macro, or of the macro. -/
def Dev.macroRecord (d : Dev) (n m addr cls action : Nat) : Dev :=
  let r : FailRec := { unit := 1, cls := cls, source := 8, action := action, die := n / 64, index := d.get (F.CORE_ID_PHYSICAL n),
                       sub := d.dutyMacro n m, addr := addr, logical := n }
  d.failRec r

/-- The failure record of a start (R397). A context, a partition and a fabric port have no unit type: the fault of one is told to the health processor
without a record (log entry 263: DESIGN CHOICE). -/
def Dev.startRecord (d : Dev) (u : SwUnit) (cls action : Nat) : Dev :=
  match u with
  | .core n => d.coreRecord n.val cls 8 action
  | .cim n m => d.macroRecord n.val m.val 0 cls action
  | .bank n m b => d.macroRecord n.val m.val (b.val * 512) cls action
  | .stack s => d.stackRecord s.val 0 cls 8 action 0xFFFF
  | .proc k =>
    let r : FailRec := { unit := 9, cls := cls, source := 8, action := action, die := 4, index := k.val, addr := d.get (F.FW_PROC_STATUS_RECENT k.val) }
    d.failRec r
  | _ => d.tell 5 4 (unitWord u)

/-- A macro index that may not be used again: a logical macro is sliced and repaired, a spare is retired (R406). -/
def Dev.macroBad (d : Dev) (n m : Nat) : Dev :=
  if m < 64 then d.askRepair n m
  else
    let d := { d with hlt := { d.hlt with retiredMacros := (n * 68 + d.dutyMacro n m) :: d.hlt.retiredMacros } }
    d.put (F.HLT_CORE_SLICE_SPARES_FREE n) (d.unassigned n).length

/-- A processor is left OFF until the next fundamental reset (R353). -/
def Dev.procLasting (d : Dev) (k : Nat) : Dev :=
  (d.puts [(F.FW_PROC_STATUS_LASTING k, 1), (F.FW_PROC_STATE_EN k, 0), (F.FW_PROC_STATE_ENABLE_PENDING k, 0)]).fwEvent F.FW_EVENT_PROC_LASTING

/-- A stack or fabric port that fails its start during boot is recorded in FW_EVENT (R345). -/
def Dev.bootDegraded (d : Dev) : Dev :=
  if stageTRAINING ≤ d.stage ∧ d.stage ≤ stageNEGOTIATING then d.fwEvent F.FW_EVENT_BOOT_DEGRADED else d

/-- A step of boot that fails sets RESULT and leaves STAGE (R335): a processor in STARTING_FW, a partition in CLEARING. The spec names no RESULT for
them: the code is a free value (log entry 264: DESIGN CHOICE). -/
def Dev.bootStepFails (d : Dev) : SwUnit → Dev
  | .proc _ => if d.stage = stageSTARTING_FW then let (v, d) := d.drawFree; d.setResult (v.toNat % 256) else d
  | .part _ => if d.stage = stageCLEARING then let (v, d) := d.drawFree; d.setResult (v.toNat % 256) else d
  | _ => d

/-- The second start has failed too: OFF with START_FAULT, EN cleared, the health processor told, and the repair that the unit asks for. -/
def Dev.startLasting (d : Dev) (u : SwUnit) : Dev :=
  let w := unitWord u
  let d := ((d.puts [(swSTATE w, codeOFF), (swPENDING w, 0), (swFAULT w, 1), (swEN u, 0)]).tell 5 4 w).bootStepFails u
  match u with
  | .core n => d.coreRepair n.val
  | .cim n m => (d.startRecord u clsLasting 0xA).macroBad n.val m.val
  | .bank n m _ => (d.startRecord u clsLasting 0xA).macroBad n.val m.val
  | .proc k => (d.startRecord u clsLasting 0).procLasting k.val
  | .stack _ => (d.startRecord u clsLasting 0).bootDegraded
  | .port _ => d.bootDegraded
  | _ => d

def Dev.setStarts (d : Dev) (w : Nat) (v : Option Nat) : Dev :=
  { d with starts := match v with
    | some n => tset d.starts w n
    | none => terase d.starts w }

/-- A start fails: STOPPING, from which the function starts once more, or is left OFF. -/
def Dev.startFails (d : Dev) (u : SwUnit) : Dev :=
  let w := unitWord u
  let second : Bool := tfind d.starts w = some 2
  (d.put (swSTATE w) codeSTOPPING).setStarts w (some (if second then 3 else 1))

/-- The second start has succeeded: the fault was transient (R32); a stack that had dropped out is back (R228). -/
def Dev.startMended (d : Dev) (u : SwUnit) : Dev :=
  let d := if tfind d.starts (unitWord u) = some 2 then d.startRecord u clsTransient 1 else d
  match u with
  | .stack s => if d.wall.dropped.contains s.val then
      ({ d with wall := { d.wall with dropped := d.wall.dropped.filter (· ≠ s.val) } }).stackRecord s.val 0 clsTransient 9 1 0xFFFF else d
  | _ => d

/-! ### Reaching ON -/

/-- The firmware of a processor reloads its watchdog (R350). -/
def Dev.reloadWdt (d : Dev) (k : Nat) : Dev := d.modFw fun f => { f with reload := tset f.reload k d.now }

/-- Nanoseconds until the watchdog of a processor reaches zero (R350). -/
def Dev.wdtLeft (d : Dev) (k : Nat) : Nat := d.get (F.FW_PROC_WDT_TIMEOUT_MS k) * 1000000 - (d.now - tget 0 d.fw.reload k)

/-- What follows when a function is in service. -/
def Dev.onWork (z : Fixed) (d : Dev) : SwUnit → Dev
  | .ctx c => d.ctxOn z c.val
  | .port p => d.setLink p.val true
  | .stack s => d.wallReturn s.val
  | .proc k =>
    let d := (d.procChange k.val).reloadWdt k.val
    match k.val with
    | 0 => match d.fw.service with
      | some (b, ok) => (d.modFw fun f => { f with service := none }).servicePerform b ok
      | none => d
    | 4 => d.capSync.opSyncAll
    | 5 => { d with aux := { d.aux with served := true } }
    | _ => d
  | _ => d

def Dev.reachOn (z : Fixed) (d : Dev) (u : SwUnit) : Dev :=
  let w := unitWord u
  let d := (d.put (swSTATE w) codeON).put (swSTARTS w) (d.get (swSTARTS w) + 1)
  ((d.startMended u).setStarts w none).onWork z u

/-! ### The rows -/

/-- A context whose state word has been written is one of those that the host state lists. -/
def Dev.noteCtx (d : Dev) : SwUnit → Dev
  | .ctx c => d.modCtx c.val fun r => r
  | _ => d

/-- A write of EN (R31): of a function that may not start it is recorded. -/
def Dev.writeEn (z : Fixed) (d : Dev) (u : SwUnit) (v : Nat) : Dev :=
  let w := unitWord u
  match d.get (swSTATE w) with
  | 0 =>
    let d := d.put (swEN u) v
    if v = 1 ∧ mayStart z d u then (d.setStarts w none).startUnit z u else if v = 1 then d.noteCtx u else d
  | 1 => d.put (swEN u) v
  | 2 => let d := d.put (swEN u) v
    if v = 0 then d.stopUnit u else d
  | _ => (d.put (swEN u) v).put (swPENDING w) v

/-- The switchable function that a macro index names: that of the logical macro which a spare serves (*CIM_ registers*). -/
def Dev.homeUnit (d : Dev) : SwUnit → SwUnit
  | .cim n m => .cim n (Fin.ofNat 68 (d.cimHome n.val m.val))
  | .bank n m b => .bank n (Fin.ofNat 68 (d.cimHome n.val m.val)) b
  | u => u

/-- EN_WRITE (R31). -/
def execEnWrite (q : Requester) (u : SwUnit) (v : Fin 2) (s : State) : Host.Outcome State Fault Refusal := s.upd fun z d =>
  if enReaches z d q u then d.writeEn z (d.homeUnit u) v.val else d

/-- STARTING ends: ON, or STOPPING where EN is 0 or a check failed (R31, R32), of a processor also one of its sections (R351). -/
def Dev.startEnds (z : Fixed) (d : Dev) (u : SwUnit) (ok : Bool) : Dev :=
  let w := unitWord u
  let ok := ok && match u with
    | .proc k => d.sectionsHold k.val
    | _ => true
  if d.get (swSTATE w) ≠ codeSTARTING then d
  else
    let d := if !ok then d.startFails u
      else if d.get (swEN u) = 1 ∧ !d.partStops u then d.reachOn z u
      else ((if d.partStops u then d.put (swEN u) 0 else d).put (swSTATE w) codeSTOPPING).setStarts w none
    let d := d.clearingOver z u
    match u with
    | .part _ => d.showClearing
    | _ => d

/-- STARTING_COMPLETE (R31). A stack's training also gives the data lanes it remapped and its length in ms (R216). -/
def execStartingComplete (u : SwUnit) (ok : Bool) (lanes : BitVec 6) (ms : BitVec 10) (s : State) : Host.Outcome State Fault Refusal :=
  s.upd fun z d =>
    let u := d.homeUnit u
    let d := match u with
      | .stack k => if d.stateOf u = codeSTARTING then
          d.puts [(F.MEM_STACK_INFO_LANES_REPAIRED k.val, lanes.toNat), (F.MEM_STACK_INFO_TRAIN_MS k.val, ms.toNat)] else d
      | _ => d
    d.startEnds z u ok

/-- START_TIME_LIMIT (R32): STARTING passes its time limit. -/
def execStartTimeLimit (u : SwUnit) (s : State) : Host.Outcome State Fault Refusal := s.upd fun z d => d.startEnds z (d.homeUnit u) false

/-- A function that stops has reached its safe point: OFF, or through OFF to STARTING (R31, R32). -/
def Dev.safePoint (z : Fixed) (d : Dev) (u : SwUnit) : Dev :=
  let w := unitWord u
  if d.get (swSTATE w) ≠ codeSTOPPING || !d.isSafe u then d
  else
    let tries := tfind d.starts w
    let pending : Bool := d.get (swPENDING w) = 1
    let d := d.offWork u
    let d := d.put (swSTATE w) codeOFF
    if tries = some 3 then (d.setStarts w none).startLasting u
    else if tries = some 1 then (d.setStarts w (some 2)).startUnit z u
    else
      let d := d.setStarts w none
      if !pending then d
      else if !mayStart z d u then (if d.partStops u then d.put (swEN u) 0 else d).put (swPENDING w) 0
      else
        let d := d.startUnit z u
        match u with
        | .proc _ => d.fwEvent F.FW_EVENT_PROC_RESTART
        | _ => d

/-- SAFE_POINT_REACHED (R31). -/
def execSafePointReached (u : SwUnit) (s : State) : Host.Outcome State Fault Refusal := s.upd fun z d => d.safePoint z (d.homeUnit u)

/-! ### Processor restarts (R349, R350, R353) -/

/-- Hardware writes EN = 0 and then EN = 1 (R350). -/
def Dev.restartProc (z : Fixed) (d : Dev) (k : Fin 6) : Dev :=
  if d.bit (F.FW_PROC_STATUS_LASTING k.val) then d else (d.writeEn z (.proc k) 0).writeEn z (.proc k) 1

/-- PROC_RESTART (R349): the physical function, with feature HOST_RESTART on, restarts one of processors 1 to 5. -/
def execProcRestart (q : Requester) (k : Fin 6) (s : State) : Host.Outcome State Fault Refusal := s.upd fun z d =>
  if d.pfWrites q && d.feature 2 && k.val ≠ 0 then d.restartProc z k else d

/-- A watchdog that counts (log entry 276: DESIGN CHOICE) reaches zero: the fourth expiry in 60 s leaves the processor OFF (R353), any other restarts it (R350). -/
def Dev.expire (z : Fixed) (d : Dev) (k : Fin 6) : Dev :=
  if !d.procOn k.val || decide (0 < d.wdtLeft k.val) then d
  else
    let times := (tget [] d.fw.expiries k.val).filter (fun t => decide (d.now < t + 60000000000)) ++ [d.now]
    let d := d.modFw fun f => { f with expiries := tset f.expiries k.val times }
    let d := (d.bump (F.FW_PROC_CNT_WDT k.val) 1).put (F.FW_PROC_STATUS_RECENT k.val) (min 4 times.length)
    if times.length < 4 then d.restartProc z k
    else ((d.writeEn z (.proc k) 0).startRecord (.proc k) clsLasting 0).procLasting k.val

/-- WATCHDOG_EXPIRY, `ns` after the last event (R350). -/
def execWatchdogExpiry (k : Fin 6) (ns : Nat) (s : State) : Host.Outcome State Fault Refusal := s.upd fun z d => (d.elapse ns).expire z k

/-! ### Set-up (R297, R301) -/

/-- SETUP_LOCK_CLOSE: the physical function or a Helam processor closes the lock. -/
def execSetupLockClose (q : Requester) (s : State) : Host.Outcome State Fault Refusal := s.updFixed fun z d =>
  if d.barOpen q && fullAccess q then ({ z with setup := { z.setup with locked := true } }, d)
  else (z, d)

/-- A write of LAYOUT: only while the lock is open and every partition is OFF, and never the reserved value. -/
def layoutWrite (z : Fixed) (d : Dev) (v : Nat) : Fixed :=
  if z.setup.locked || v = 3 || !((List.range 4).all fun p => d.partState p = codeOFF) then z
  else { z with setup := { z.setup with rwl := RegFile.put z.setup.rwl F.HOST_PART_CFG_LAYOUT v } }

/-- LAYOUT_WRITE (R297). -/
def execLayoutWrite (q : Requester) (v : Fin 4) (s : State) : Host.Outcome State Fault Refusal := s.updFixed fun z d =>
  if d.barOpen q && fullAccess q then (layoutWrite z d v.val, d) else (z, d)

end Sys2Proof.Machine
end

