-- ==== Sys2Proof/Machine/Boot.lean ====
section
/-! DEFINITION. Sys2Proof/Machine/Boot.lean: from power-good to READY: fundamental reset, ROM, images, the boot mailbox, firmware start, training, clearing
(R335 to R347, R210, R217, R235), Function Level Reset (R332, R346), configuration requests and the link (R292). -/
namespace Sys2Proof.Machine

open Sys2Proof

/-- PERST_N is high with power good: the module runs. -/
def Dev.awake (d : Dev) : Bool := d.powered && !d.aux.perst

/-! ### Reset and ROM -/

/-- PERST_ASSERT (R7, R346): a fundamental reset; main power stays. -/
def execPerstAssert (s : State) : Host.Outcome State Fault Refusal := s.updFixed fun z d =>
  if d.aux.perst then (z, d)
  else
    let r := if d.powered then fundamentalReset z d else (z, d)
    (r.1, { r.2 with aux := { r.2.aux with perst := true } })

/-- The loader runs: the mailbox opens and configuration requests are answered (R335). -/
def Dev.runLoader (d : Dev) (b : List Byte) : Dev :=
  let d := { d with fw := { d.fw with loader := b }, aux := { d.aux with configOpen := true } }.loadRam 0 b
  (d.put F.FW_VERSION_LOADER (imgNat b 17 3)).setStage stageOPEN

/-- The ROM waits for a loader from the host (R336, R338). -/
def Dev.recovery (d : Dev) (r : Nat) : Dev :=
  ({ d with aux := { d.aux with configOpen := true } }).setStage stageRECOVERY |>.setResult r

/-- ROM_RUN (R336): the shadow latch, the life-cycle state, the loader from side flash. -/
def Dev.romRun (d : Dev) (flashOk fuseBad : Bool) : Dev :=
  let d := if fuseBad then d.tamper 5 else d
  if d.lifeCycle = lcSCRAPPED ∨ d.lifeCycle = lcBLANK then (d.setStage stageHALTED).setResult resNotPermitted
  else if !flashOk || !d.flash.names .loader then d.recovery resFlashError
  else
    let r := d.verifyImage 1 d.flash.loader
    if r = resOK then d.runLoader d.flash.loader else d.recovery r

/-- PERST_DEASSERT (R335): with power good, boot starts. -/
def execPerstDeassert (flashOk fuseBad : Bool) (s : State) : Host.Outcome State Fault Refusal := s.upd fun _ d =>
  if !d.aux.perst then d
  else
    let up := d.powered
    let d := { d with aux := { d.aux with perst := false } }
    if up then d.romRun flashOk fuseBad else d

/-- A Function Level Reset of the physical function during FETCHING ends the fetch (R346). -/
def Dev.resetFetch (d : Dev) (f : Nat) : Dev :=
  if f = 0 ∧ d.stage = stageFETCHING then (d.mboxEnd resFetchFailed).setStage stageOPEN else d

/-- FUNCTION_LEVEL_RESET (R332, R346). -/
def execFunctionLevelReset (f : Fin 64) (s : State) : Host.Outcome State Fault Refusal := s.upd fun z d =>
  (d.silence z (functionsOf f.val)).resetFetch f.val

/-! ### The boot mailbox -/

/-- A mailbox command of the physical function in its stage; in any other it is WRONG_STAGE (R343). -/
def Dev.mailbox (d : Dev) (q : Requester) (stage : Nat) (go : Dev → Dev) : Dev :=
  if !d.pfWrites q then d else if d.mboxTakes stage then go d else d.wrongStage

/-- CMD = LOAD. -/
def Dev.load (d : Dev) : Dev := (d.setStage stageFETCHING).beginFetch

/-- LOAD (R344). -/
def execLoad (q : Requester) (s : State) : Host.Outcome State Fault Refusal := s.upd fun _ d => d.mailbox q stageOPEN Dev.load

/-- LOAD_LOADER (R338). -/
def execLoadLoader (q : Requester) (s : State) : Host.Outcome State Fault Refusal := s.upd fun _ d => d.mailbox q stageRECOVERY Dev.beginFetch

/-- A fetch for boot ends: the image store or the ROM has the bytes; a failed read is retried once (R338, R342, R344). -/
def Dev.fetchDone (d : Dev) (data : Option (List Byte)) : Dev :=
  let boot : Bool := d.stage = stageFETCHING
  if !boot && d.stage ≠ stageRECOVERY then d
  else match d.fw.fetch, data with
    | none, _ => d
    | some (a, n), none =>
      if !d.fw.retried then (d.modFw fun f => { f with retried := true }).emit (.hostRead 0 a n)
      else
        let d := d.mboxEnd resFetchFailed
        if boot then d.setStage stageOPEN else d
    | some (_, n), some b =>
      if b.length ≠ n then d
      else if boot then (d.modFw fun f => { f with image := b, fetch := none, retried := false }).setStage stageVERIFYING
      else d.modFw fun f => { f with fetched := some b, fetch := none, retried := false }

/-- IMAGE_FETCH_DONE (R344). -/
def execImageFetchDone (data : Option (List Byte)) (s : State) : Host.Outcome State Fault Refusal := s.upd fun _ d => d.fetchDone data

/-- Verification of a fetched image ends (R338, R341, R344): a failing image is not kept. -/
def Dev.verifyDone (d : Dev) : Dev :=
  if d.stage = stageVERIFYING then
    let r := d.verifyImage 2 d.fw.image
    if r = resOK then (d.mboxEnd resOK).setStage stageVERIFIED
    else ((d.modFw fun f => { f with image := [] }).mboxEnd r).setStage stageOPEN
  else if d.stage = stageRECOVERY then match d.fw.fetched with
    | none => d
    | some b =>
      let r := d.verifyImage 1 b
      let d := (d.modFw fun f => { f with fetched := none }).mboxEnd r
      if r = resOK then d.runLoader b else d
  else d

/-- IMAGE_VERIFY_DONE (R341). -/
def execImageVerifyDone (s : State) : Host.Outcome State Fault Refusal := s.upd fun _ d => d.verifyDone

/-- EN = 1 by hardware or firmware in a function that is OFF. -/
def Dev.enable (z : Fixed) (d : Dev) (u : SwUnit) : Dev := if d.stateOf u = codeOFF then (d.put (swEN u) 1).startUnit z u else d

/-- CMD = RELEASE: the RWL fields are sampled, and the runtime sections are loaded into the six processors (R345). -/
def Dev.release (z : Fixed) (d : Dev) : Dev :=
  let b := d.fw.image
  let d := (d.modFw fun f => { f with sampled := z.setup.rwl }).puts [(F.FW_MBOX_STATUS_STAGE, stageSTARTING_FW), (F.FW_MBOX_STATUS_RESULT, resOK),
    (F.FW_VERSION_RUNTIME, imgNat b 16 4), (F.FW_VERSION_SVN, imgNat b 12 4)]
  ([0, 1, 2, 3, 4, 5] : List (Fin 6)).foldl (fun d k => d.enable z (.proc k)) d

/-- RELEASE (R345). -/
def execRelease (q : Requester) (s : State) : Host.Outcome State Fault Refusal := s.updFixed fun z d =>
  (if d.pfWrites q && d.mboxTakes stageVERIFIED then { z with setup := { z.setup with layout := some z.layout } } else z,
   d.mailbox q stageVERIFIED (Dev.release z))

/-! ### Firmware start, training, clearing -/

def allStacks : List (Fin 24) := (List.range 24).map fun i => Fin.ofNat 24 i
def allCores : List (Fin 256) := (List.range 256).map fun i => Fin.ofNat 256 i

/-- All six processors are ON: training begins (R335, R216, R239); the running firmware tells the features it knows (R347). -/
def Dev.fwStarted (z : Fixed) (d : Dev) (sup : Nat) : Dev :=
  if d.stage ≠ stageSTARTING_FW || !((List.range 6).all fun k => d.procOn k) then d
  else
    let d := (d.setStage stageTRAINING).put F.FW_FEAT_SUP (sup % 64)
    let start := fun (d : Dev) (u : SwUnit) => if d.get (swEN u) = 1 then d.enable z u else d
    ((allStacks.map SwUnit.stack) ++ [SwUnit.port 0, SwUnit.port 1]).foldl start d

/-- FW_START_DONE (R335). -/
def execFwStartDone (sup : BitVec 64) (s : State) : Host.Outcome State Fault Refusal := s.upd fun z d => d.fwStarted z sup.toNat

/-- A wall samples PARITY, shows its base and size, and takes its state from its stacks (R217, R229). -/
def Dev.wallUp (d : Dev) (w : Nat) : Dev :=
  let d := d.puts [(F.MEM_WALL_CFG_PARITY_EFF w, RegFile.get d.fw.sampled (F.MEM_WALL_CFG_PARITY w)), (F.MEM_WALL_STATUS_STATE w, wallNormal),
    (F.MEM_WALL_STATUS_MISSING w, 0xF)]
  let d := d.puts [(F.MEM_WALL_MAP_BASE w, w * d.wallSize 0), (F.MEM_WALL_MAP_SIZE_GIB w, d.wallSize w / 2 ^ 30)]
  ((List.range 12).filter fun l => d.get (F.MEM_STACK_STATE_STATE (12 * w + l)) ≠ codeON).foldl (fun d l => d.wallLose (12 * w + l)) d

/-- Every scratchpad and every pool is being cleared (R209). -/
def sramClearing : List (Fld × Nat) := (List.range 256).map (fun n => (F.POOL_SP_STATUS_CLEARING n, 1)) ++ (List.range 4).map fun die => (F.POOL_DP_STATUS_CLEARING die, 1)

/-- Every stack is ON or has failed its start: the clears of SRAM and stacks begin (R209, R210, R235). -/
def Dev.trained (d : Dev) : Dev :=
  let settled : Bool := (List.range 24).all fun s => d.get (F.MEM_STACK_STATE_STATE s) = codeON || d.get (F.MEM_STACK_STATE_STATE s) = codeOFF
  if d.stage ≠ stageTRAINING || !settled then d
  else
    let d := ((d.wallUp 0).wallUp 1).setStage stageCLEARING
    ((d.wipeAll wipeClearing).puts sramClearing).put F.MEM_CLEAR_CLEARING (RegFile.get d.fw.sampled F.MEM_CLEAR_BOOT_CLEAR)

/-- TRAINING_DONE (R335). -/
def execTrainingDone (s : State) : Host.Outcome State Fault Refusal := s.upd fun _ d => d.trained

/-- The bank that a physical bank of an array serves, if any (R203). -/
def Dev.bankServed (d : Dev) (arr phys : Nat) : Option Nat := (List.range (arrBanks arr)).find? fun b => d.homeBank arr b = phys

/-- A failing cell of a physical bank that the boot clear has found is handed to the health processor and repaired by column, by spare bank or by spare
core, with its record (R210, R397). A spare bank that serves none is used no more (log entry 265: DESIGN CHOICE). -/
def Dev.bootRepair (d : Dev) (arr phys row col : Nat) : Dev :=
  if 260 ≤ arr then d else
  let told := fun (d : Dev) (action : Nat) => (d.tell 5 7 (wordAddr arr phys row)).arrayRecord arr phys row clsLasting 1 action col
  match d.bankServed arr phys with
  | none =>
    let d := told d 0
    if arrBanks arr ≤ phys then
      let d := { d with pool := { d.pool with retired := (arr * 4 + (phys - arrBanks arr)) :: d.pool.retired } }
      if arr < 256 then d else d.put (F.HLT_DIE_SPARE_BANKS (arr - 256)) (d.unassignedBanks (arr - 256))
    else d
  | some bank =>
    match d.freeColumn arr bank with
    | some e => if d.hasColumn arr bank col then d else (told d 2).columnEntry arr bank e col
    | none =>
      if arr < 256 then match d.freeCores (arr / 64) with
        | p :: _ => (told d 5).moveCore arr p
        | [] => (told d 8).coreRepair arr
      else match d.freeBanks arr with
        | s :: _ => if 2 ≤ d.sparesLeft (arr - 256) then (told d 3).assignBank arr s bank else told d 0
        | [] => told d 0

/-- The state words of macros and banks that have fields set. -/
def Dev.macroWords (d : Dev) : List Nat :=
  let l := d.regs.filterMap fun p => if (⟨p.1 / 64, p.1 % 64, 1, 0⟩ : Fld).ofMacro then some (p.1 / 64) else none
  l.foldl (fun a w => if a.contains w then a else w :: a) []

/-- Every macro and bank whose EN reads 1 is started, and cleared as the start asks (R66, R67). -/
def Dev.startMacros (d : Dev) : Dev :=
  let fields := d.macroWords.flatMap fun w =>
    let st := d.get (swSTATE w)
    let n := d.get (swSTARTS w)
    let go : Bool := st = codeOFF && d.get ⟨w, 0, 1, 1⟩ = 1
    [(swSTATE w, if go then codeON else st), (swSTARTS w, if go then n + 1 else n)]
  ({ d with macrosUp := true, cells := [] }).puts fields

/-- BOOT_CLEAR_DONE: SRAM is zero, and the stacks too where BOOT_CLEAR asks for it; failing cells are repaired; macros and banks start, those named in `bad`
failing once, or twice where it says so (R32); the partitions and cores are enabled (R37, R66, R210, R235, R298). -/
def Dev.bootCleared (z : Fixed) (d : Dev) (cells : List (BankArray × Fin 196 × Fin 4096 × Fin 576)) (bad : List (SwUnit × Bool)) : Dev :=
  if d.stage ≠ stageCLEARING ∨ d.macrosUp then d
  else
    let stackList : Bool := RegFile.get d.fw.sampled F.MEM_CLEAR_BOOT_CLEAR = 1
    let d := { d with mem := d.mem.filter fun c => decide (deckHomeBase ≤ c.1) }
    let d := if stackList then ({ d with wall := { d.wall with slots := [] } }).zeroHalves (List.range 48) else d
    let d := (d.puts [(F.MEM_CLEAR_CLEARED, b01 stackList), (F.MEM_CLEAR_CLEARING, 0)]).puts (sramClearing.map fun x => (x.1, 0))
    let d := cells.foldl (fun d x => d.bootRepair (arrOf x.1) x.2.1.val x.2.2.1.val x.2.2.2.val) d
    let start := fun (d : Dev) (u : SwUnit) (twice : Bool) => if twice then d.startLasting u else d.startRecord u clsTransient 1
    let d := bad.foldl (fun d x => match x.1 with
      | .cim _ _ => start d x.1 x.2
      | .bank _ _ _ => start d x.1 x.2
      | _ => d) d
    let d := d.startMacros
    let parts := match RegFile.get d.fw.sampled F.HOST_PART_CFG_LAYOUT with
      | 0 => ([0] : List (Fin 4))
      | 1 => [0, 1]
      | _ => [0, 1, 2, 3]
    let d := parts.foldl (fun d p => d.enable z (.part p)) d
    (allCores.filter fun n => !d.bit (F.HLT_CORE_SLICE_MAPPED_OUT n.val)).foldl (fun d n => d.enable z (.core n)) d

/-- BOOT_CLEAR_DONE (R235). -/
def execBootClearDone (cells : List (BankArray × Fin 196 × Fin 4096 × Fin 576)) (bad : List (SwUnit × Bool)) (s : State) : Host.Outcome State Fault Refusal :=
  s.upd fun z d => d.bootCleared z cells bad

/-- Every partition of the layout is ON, and every core is ON or has been left OFF (R37): the features are settled and boot reaches READY (R335, R347). -/
def Dev.cleared (d : Dev) : Dev :=
  let n := match RegFile.get d.fw.sampled F.HOST_PART_CFG_LAYOUT with
    | 0 => 1
    | 1 => 2
    | _ => 4
  let up : Bool := d.macrosUp && ((List.range n).all fun p => d.partState p = codeON) && (List.range 256).all fun c => d.coreOn c || d.coreState c = codeOFF
  if d.stage ≠ stageCLEARING || !up then d
  else
    let d := d.put F.FW_FEAT_ON (d.get F.FW_FEAT_REQ &&& d.get F.FW_FEAT_SUP)
    (d.setStage stageREADY).opSyncAll

/-- CLEARING_DONE (R335). -/
def execClearingDone (s : State) : Host.Outcome State Fault Refusal := s.upd fun _ d => d.cleared

/-! ### PCI Express (R292, R293) -/

/-- What configuration space says of a function (R292): vendor ID, device ID, revision ID and class code. -/
def pciIdentity (f : Nat) : Nat × Nat × Nat × Nat := (0x1F3B, if f = 0 then 0x0240 else 0x0241, 0xB0, 0x120000)

/-- CONFIGURATION_REQUEST of a function (R292, R336): retry status until the loader runs or the ROM enters RECOVERY. An answered request may set the size of the
BAR4 window, 2^30 bytes up to 2^39 on the physical function and 2^36 on a virtual one (R293). -/
def Dev.configRequest (d : Dev) (f : Nat) (resize : Option Nat) : Dev :=
  if !d.awake then d
  else if !d.aux.configOpen then d.emit (.configReply none)
  else
    let d := d.emit (.configReply (some (pciIdentity f)))
    match resize with
    | none => d
    | some k =>
      if 30 ≤ k ∧ k ≤ (if f = 0 then 39 else 36) then { d with host := { d.host with bar4Log2 := tset d.host.bar4Log2 f k } } else d

/-- CONFIGURATION_REQUEST (R292). -/
def execConfigurationRequest (q : ConfigAccess) (s : State) : Host.Outcome State Fault Refusal := s.upd fun _ d =>
  d.configRequest q.f.val (q.resize.map (·.val))

/-- PCIE_LINK_TRAINED (R292): HOST_LINK shows the trained generation, width and mode. -/
def execPcieLinkTrained (gen : Fin 8) (width : Fin 32) (flit : Bool) (s : State) : Host.Outcome State Fault Refusal := s.upd fun _ d =>
  if d.awake && gen.val ≠ 0 && [1, 2, 4, 8, 16].contains width.val then
    d.puts [(F.HOST_LINK_GEN, gen.val), (F.HOST_LINK_WIDTH, width.val), (F.HOST_LINK_FLIT, b01 flit)]
  else d

end Sys2Proof.Machine
end

