-- ==== Sys2Proof/Machine/Module.lean ====
section
/-! DEFINITION. Sys2Proof/Machine/Module.lean: the power sequence and protection (R428 to R431), the SMBus endpoint (R436, R437), its sensors, effecter and
platform events (R438 to R441). -/
namespace Sys2Proof.Machine

open Sys2Proof

def Dev.modAux (d : Dev) (f : ModS → ModS) : Dev := { d with aux := f d.aux }

/-- A loss of main power for a cause, where the rails are up or coming up. -/
def loseMain (z : Fixed) (d : Dev) (cause : Nat) (fault : Bool) : Fixed × Dev :=
  if d.aux.rails = .off then (z, d) else mainPowerLost z d cause fault

/-- PWR_EN is acted on: the power stage brings up the internal rails (R428), unless a protection event still holds (R430). -/
def Dev.bringUp (d : Dev) : Dev :=
  let a := d.aux
  if a.auxOn && a.pwrEn && a.vinOk && !a.fault && !a.thermTrip && a.rails = .off then d.modAux fun a => { a with rails := .rising } else d

/-- AUX_POWER_UP (R428, R436): the auxiliary domain starts with no records, and the straps are sampled. -/
def execAuxPowerUp (straps : Fin 4) (s : State) : Host.Outcome State Fault Refusal := s.upd fun _ d =>
  if d.aux.auxOn then d
  else d.modAux fun a => { a with auxOn := true, pwrEn := false, straps := straps.val, eid := 0, cause := 1, fault := false, thermTrip := false }

/-- AUX_POWER_LOSS (R442): the main rails are removed as by a stage fault, and every record is lost. -/
def auxLost (z : Fixed) (d : Dev) : Fixed × Dev :=
  let (z, d) := loseMain z d causeStage true
  let d := d.puts (keptFields.map fun f => (f, 0))
  (z, d.modAux fun a => { a with
    auxOn := false, pwrEn := false, eid := 0, cause := 1, fault := false, thermTrip := false, receiver := none, events := [], readings := [],
    levels := [], vin := 0, current := 0 })

/-- AUX_POWER_LOSS (R442). -/
def execAuxPowerLoss (s : State) : Host.Outcome State Fault Refusal := s.updFixed fun z d => if d.aux.auxOn then auxLost z d else (z, d)

/-- PWR_EN_ASSERT (R428, R430, R442). -/
def execPwrEnAssert (s : State) : Host.Outcome State Fault Refusal := s.upd fun _ d =>
  if d.aux.auxOn && !d.aux.pwrEn then (d.modAux fun a => { a with pwrEn := true }).bringUp else d

/-- RAIL_UP_DONE (R428): PWRGD is asserted. -/
def execRailUpDone (s : State) : Host.Outcome State Fault Refusal := s.upd fun _ d =>
  if d.aux.rails = .rising then d.modAux fun a => { a with rails := .good } else d

/-- RAIL_UP_TIMEOUT (R428): the rails are removed, and the cause is a stage fault. -/
def execRailUpTimeout (s : State) : Host.Outcome State Fault Refusal := s.upd fun _ d =>
  if d.aux.rails = .rising then d.modAux fun a => { a with rails := .off, fault := true, cause := causeStage } else d

/-- PWR_EN_DEASSERT (R429). -/
def execPwrEnDeassert (s : State) : Host.Outcome State Fault Refusal := s.updFixed fun z d =>
  if d.aux.pwrEn then loseMain z (d.modAux fun a => { a with pwrEn := false }) causePwrEn false else (z, d)

/-- VIN_UNDERVOLTAGE (R430). -/
def execVinUndervoltage (s : State) : Host.Outcome State Fault Refusal := s.updFixed fun z d =>
  loseMain z (d.modAux fun a => { a with vinOk := false }) causeUndervoltage true

/-- VIN_OVERVOLTAGE (R430). -/
def execVinOvervoltage (s : State) : Host.Outcome State Fault Refusal := s.updFixed fun z d => loseMain z d causeOvervoltage true

/-- OVERCURRENT (R430). -/
def execOvercurrent (s : State) : Host.Outcome State Fault Refusal := s.updFixed fun z d => loseMain z d causeOvercurrent true

/-- STAGE_FAULT (R430). -/
def execStageFault (s : State) : Host.Outcome State Fault Refusal := s.updFixed fun z d => loseMain z d causeStage true

/-- FAULT_RELEASE (R430): PWR_EN has been low for 100 ms. -/
def execFaultRelease (s : State) : Host.Outcome State Fault Refusal := s.upd fun _ d =>
  if d.aux.pwrEn then d else d.modAux fun a => { a with fault := false, thermTrip := false }

/-- VIN_RISE (R428, R430): a PWR_EN that waits for VIN is acted on. -/
def execVinRise (s : State) : Host.Outcome State Fault Refusal := s.upd fun _ d => (d.modAux fun a => { a with vinOk := true }).bringUp

/-! ### The endpoint (R436, R437) -/

/-! PLDM completion codes (R431, R436, R440). -/
def pldmSUCCESS : Nat := 0x00
def pldmERROR : Nat := 0x01
def pldmERROR_INVALID_DATA : Nat := 0x02
def pldmERROR_NOT_READY : Nat := 0x04
def pldmERROR_UNSUPPORTED : Nat := 0x05
/-- An unknown sensor or effecter (log entry 62: PRESUMED, unsafe). -/
def pldmINVALID_ID : Nat := 0x80

def Dev.answer (d : Dev) (code : Nat) (data : List Byte) : Dev := d.emit (.pldm code data)

/-- Who answers a request: the standby responder, Helam processor 5, or nobody while it restarts or 3V3_AUX is off. -/
def Dev.request (d : Dev) (standby full : Dev → Dev) : Dev :=
  if !d.aux.auxOn then d
  else if !d.aux.served then standby d
  else if d.procOn 5 then full d else d

def Dev.notReady (d : Dev) : Dev := d.answer pldmERROR_NOT_READY []

/-- Set Endpoint ID: the first one stays until 3V3_AUX is removed. -/
def Dev.setEid (d : Dev) (e : Nat) : Dev :=
  if e = 0 ∨ e = 0xFF then d.answer pldmERROR_INVALID_DATA []
  else
    let d := if d.aux.eid = 0 then d.modAux fun a => { a with eid := e } else d
    d.answer pldmSUCCESS [BitVec.ofNat 8 d.aux.eid]

/-- SET_ENDPOINT_ID (R437). -/
def execSetEndpointId (eid : BitVec 8) (s : State) : Host.Outcome State Fault Refusal := s.upd fun _ d =>
  d.request (fun d => d.setEid eid.toNat) (fun d => d.setEid eid.toNat)

/-! ### Sensors (R438, R439) -/

/-- Numeric sensors, and those of them that the standby responder serves. -/
def numericSensors : List Nat := (List.range 19).map (· + 1)
def standbyNumeric : List Nat := [1, 2, 10, 11, 12]
def stateSensors : List Nat := (List.range 9).map (· + 32)
def standbyState : List Nat := [32, 33]

/-- Hottest stack of a wall. -/
def Dev.wallTemp (d : Dev) (w : Nat) : Nat := maxOf ((List.range 12).map fun l => d.get (F.MEM_STACK_TEMP_TEMP_C (12 * w + l)))

/-- One kJ in µJ. -/
def kiloJoule : Nat := 10 ^ 9

/-- What a numeric sensor measures now; inlet and power stage as the auxiliary domain reads them. -/
def Dev.sense (d : Dev) (inlet stage : Nat) : Nat → Nat
  | 1 => inlet
  | 2 => stage
  | 3 => d.get F.THM_BOARD_IO_DIE_C
  | 4 => d.get (F.THM_DIE_DIE_C 0)
  | 5 => d.get (F.THM_DIE_DIE_C 1)
  | 6 => d.get (F.THM_DIE_DIE_C 2)
  | 7 => d.get (F.THM_DIE_DIE_C 3)
  | 8 => d.wallTemp 0
  | 9 => d.wallTemp 1
  | 10 => d.aux.vin
  | 11 => d.aux.current
  | 12 => d.get F.PWR_STATUS_POWER_W
  | 13 => d.get F.PWR_MODULE_ENERGY / kiloJoule % 2 ^ 32
  | 14 => d.get (F.PWR_PART_ENERGY 0) / kiloJoule % 2 ^ 32
  | 15 => d.get (F.PWR_PART_ENERGY 1) / kiloJoule % 2 ^ 32
  | 16 => d.get (F.PWR_PART_ENERGY 2) / kiloJoule % 2 ^ 32
  | 17 => d.get (F.PWR_PART_ENERGY 3) / kiloJoule % 2 ^ 32
  | 18 => d.cap
  | 19 => d.get F.FUSE_SKU_CEILING_W
  | _ => 0

/-- The upper warning and critical thresholds of a sensor. -/
def Dev.thresholds (d : Dev) : Nat → Option (Nat × Nat)
  | 1 => some (d.get F.THM_LIMITS2_INLET_WARN_C, 40)
  | 2 => some (100, 110)
  | 3 => some (d.coreThrot, d.get F.THM_LIMITS_TRIP_C - 5)
  | 4 => some (d.coreThrot, d.get F.THM_LIMITS_CORE_HOLD_C)
  | 5 => some (d.coreThrot, d.get F.THM_LIMITS_CORE_HOLD_C)
  | 6 => some (d.coreThrot, d.get F.THM_LIMITS_CORE_HOLD_C)
  | 7 => some (d.coreThrot, d.get F.THM_LIMITS_CORE_HOLD_C)
  | 8 => some (d.stackThrot, d.get F.THM_LIMITS2_STACK_TRIP_C - 5)
  | 9 => some (d.stackThrot, d.get F.THM_LIMITS2_STACK_TRIP_C - 5)
  | 10 => some (600, 620)
  | 12 => some (d.cap, d.cap + d.get F.PWR_CAP_EFFECTIVE_TOL_W)
  | _ => none

/-- The level of a reading: 0 normal, 1 warning, 2 critical. -/
def Dev.level (d : Dev) (id reading : Nat) : Nat := match d.thresholds id with
  | some (w, c) => if c < reading then 2 else if w < reading then 1 else 0
  | none => 0

/-- The state of a state sensor. -/
def Dev.stateSensor (d : Dev) : Nat → Nat
  | 32 => if d.aux.fault || d.stage = stageHALTED then 4 else if d.aux.rails ≠ .good || d.aux.perst then 1 else if d.isReady then 3 else 2
  | 33 => d.aux.cause
  | 34 => if d.bit F.PWR_STATUS_CAP_UNATTAINABLE then 3 else if d.bit F.PWR_STATUS_CAP_BELOW_FLOOR then 2 else 1
  | 35 => d.get (F.MEM_WALL_STATUS_STATE 0) + 1
  | 36 => d.get (F.MEM_WALL_STATUS_STATE 1) + 1
  | 37 => d.lifeCycle + 1
  | 38 => if d.get F.LCS_TAMPER_LATCHED = 0 then 1 else 2
  | 39 => if d.get F.HLT_FAIL_INDEX_PRODUCED = d.get F.HLT_FAIL_INDEX_CONSUMED then 1 else 2
  | 40 => if d.get F.FUSE_SKU_STEPPING = 0xB0 then 1 else 0
  | _ => 0

/-- Operational states of a sensor in a response: 0 enabled, 2 unavailable (log entry 62: PRESUMED, unsafe). -/
def operEnabled : Byte := 0
def operUnavailable : Byte := 2

/-- A numeric reading in a response: operational state, level, the reading as its last refresh left it. -/
def Dev.readingData (d : Dev) (id : Nat) : List Byte :=
  let r := tget 0 d.aux.readings id
  operEnabled :: BitVec.ofNat 8 (d.level id r) :: leBytes 4 r

/-- Answer for a sensor of a list; others of the tables are unavailable in standby. -/
def Dev.sensorAnswer (d : Dev) (all some : List Nat) (id : Nat) (data : Dev → List Byte) : Dev :=
  if !all.contains id then d.answer pldmINVALID_ID []
  else if some.contains id then d.answer pldmSUCCESS (data d)
  else d.answer pldmSUCCESS [operUnavailable]

/-- GET_SENSOR_READING (R438). -/
def execGetSensorReading (id : BitVec 16) (s : State) : Host.Outcome State Fault Refusal := s.upd fun _ d =>
  d.request (fun d => d.sensorAnswer numericSensors standbyNumeric id.toNat fun d => d.readingData id.toNat)
    (fun d => d.sensorAnswer numericSensors numericSensors id.toNat fun d => d.readingData id.toNat)

/-- GET_STATE_SENSOR_READINGS (R439). -/
def execGetStateSensorReadings (id : BitVec 16) (s : State) : Host.Outcome State Fault Refusal := s.upd fun _ d =>
  let data := fun (d : Dev) => [operEnabled, BitVec.ofNat 8 (d.stateSensor id.toNat)]
  d.request (fun d => d.sensorAnswer stateSensors standbyState id.toNat data) (fun d => d.sensorAnswer stateSensors stateSensors id.toNat data)

/-! ### The effecter (R440) -/

/-- Numeric effecter 64 is the sideband cap. -/
def effecterCap : Nat := 64

/-- A set of the sideband cap. -/
def Dev.setEffecter (d : Dev) (id v : Nat) : Dev :=
  if id ≠ effecterCap then d.answer pldmINVALID_ID []
  else if !d.feature 4 then d.answer pldmERROR []
  else if d.capOk v then ((d.put F.PWR_CAP_SIDEBAND_CAP_W v).capSync).answer pldmSUCCESS []
  else (d.put F.PWR_STATUS_CAP_REFUSED 1).answer pldmERROR_INVALID_DATA []

/-- SET_NUMERIC_EFFECTER_VALUE (R440). -/
def execSetNumericEffecterValue (id : BitVec 16) (v : BitVec 32) (s : State) : Host.Outcome State Fault Refusal := s.upd fun _ d =>
  d.request Dev.notReady fun d => d.setEffecter id.toNat v.toNat

/-- GET_NUMERIC_EFFECTER_VALUE (R440). -/
def execGetNumericEffecterValue (id : BitVec 16) (s : State) : Host.Outcome State Fault Refusal := s.upd fun _ d =>
  d.request Dev.notReady fun d =>
    if id.toNat ≠ effecterCap then d.answer pldmINVALID_ID [] else d.answer pldmSUCCESS (leBytes 4 (d.get F.PWR_CAP_SIDEBAND_CAP_W))

/-! ### Platform events (R441) -/

/-- SMBALERT_N is asserted while any event waits. -/
def Dev.smbAlert (d : Dev) : Bool := d.aux.events ≠ []

/-- SET_EVENT_RECEIVER (R441): the EID of the receiver; 0 names none. -/
def execSetEventReceiver (eid : BitVec 8) (s : State) : Host.Outcome State Fault Refusal := s.upd fun _ d =>
  d.request Dev.notReady fun d =>
    (d.modAux fun a => { a with receiver := if eid = 0 then none else some eid.toNat }).answer pldmSUCCESS []

/-- Class of a platform event: 0xF0 a failure record, 0 a sensor event. -/
def eventClass (sensor : Nat) : Byte := if sensor = 256 then 0xF0 else 0

/-- POLL_FOR_PLATFORM_EVENT: the oldest waiting event is delivered. -/
def Dev.poll (d : Dev) : Dev := match d.aux.events with
  | [] => d.answer pldmSUCCESS []
  | e :: t => (d.modAux fun a => { a with events := t }).answer pldmSUCCESS (eventClass e.1 :: e.2)

/-- POLL_FOR_PLATFORM_EVENT (R441). -/
def execPollForPlatformEvent (s : State) : Host.Outcome State Fault Refusal := s.upd fun _ d => d.request Dev.notReady Dev.poll

/-- PLATFORM_EVENT_SEND (R441): the oldest event goes to the named receiver, as an event message of class and data (code 256 + EID). -/
def execPlatformEventSend (s : State) : Host.Outcome State Fault Refusal := s.upd fun _ d =>
  match d.aux.receiver, d.aux.events with
  | some r, e :: t => if d.aux.auxOn && d.endpoint then (d.modAux fun a => { a with events := t }).answer (256 + r) (eventClass e.1 :: e.2) else d
  | _, _ => d

/-- PLDM_UNSUPPORTED (R431, R436). -/
def execPldmUnsupported (s : State) : Host.Outcome State Fault Refusal := s.upd fun _ d =>
  d.request Dev.notReady fun d => d.answer pldmERROR_UNSUPPORTED []

/-! ### Refresh (R438) -/

/-- A numeric sensor is refreshed; a change of its level queues an event while processor 5 serves. -/
def Dev.refreshNumeric (d : Dev) (inlet stage : Nat) (events : Bool) (id : Nat) : Dev :=
  let r := d.sense inlet stage id
  let was := tget 0 d.aux.levels id
  let now := d.level id r
  let d := d.modAux fun a => { a with readings := tset a.readings id r, levels := tset a.levels id now }
  if events && was ≠ now then d.platformEvent id (leBytes 2 id ++ [BitVec.ofNat 8 now, BitVec.ofNat 8 was] ++ leBytes 4 r) else d

/-- A state sensor is looked at; a change of its state since the last look queues an event. -/
def Dev.refreshState (d : Dev) (id : Nat) : Dev :=
  let now := d.stateSensor id
  let was := tget now d.aux.levels id
  let d := d.modAux fun a => { a with levels := tset a.levels id now }
  if was ≠ now then d.platformEvent id (leBytes 2 id ++ [BitVec.ofNat 8 now, BitVec.ofNat 8 was]) else d

/-- SENSOR_REFRESH: every 100 ms. The inlet and power-stage temperatures, VIN in 0.1 V and VIN current in 0.01 A are what their sensors read (R432). -/
def Dev.refresh (d : Dev) (inlet stage vin current : Nat) : Dev :=
  if !d.aux.auxOn then d
  else
    let d := d.modAux fun a => { a with vin := vin, current := current }
    if !d.aux.served then standbyNumeric.foldl (fun d id => d.refreshNumeric inlet stage false id) d
    else if !d.procOn 5 then d
    else
      let inlet := d.get F.THM_BOARD_INLET_C
      let stage := d.get F.THM_BOARD_STAGE_C
      stateSensors.foldl Dev.refreshState (numericSensors.foldl (fun d id => d.refreshNumeric inlet stage true id) d)

/-- SENSOR_REFRESH (R438). -/
def execSensorRefresh (inlet stage : BitVec 8) (vin : BitVec 16) (current : BitVec 16) (s : State) : Host.Outcome State Fault Refusal :=
  s.upd fun _ d => d.refresh inlet.toNat stage.toNat vin.toNat current.toNat

end Sys2Proof.Machine
end

