-- ==== Sys2Proof/Machine/Registers.lean ====
section
/-! DEFINITION. Sys2Proof/Machine/Registers.lean: BAR0 as its requesters see it (R5, R8, R10 to R12, R294, R295): which register an offset names, what a write
of a register does by the access types of its fields and the actions of the blocks, the write stages and read latches of 64-bit registers. -/
namespace Sys2Proof.Machine

open Sys2Proof

/-! ### What an offset names -/

/-- Under which number a requester's write stage and read latch are kept: one pair per function, one for firmware (R11). -/
def stageNumber : Requester → Nat
  | .fn f => f.val
  | _ => 64

/-- Whether BAR0 of a requester decodes an offset: none in D3hot (R333), in RECOVERY only HOST_ID and the mailbox, of the physical function (R336). -/
def Dev.decodes (d : Dev) (q : Requester) (off : Nat) : Bool :=
  match q with
  | .fn f =>
    !d.host.d3.contains f.val &&
      (d.get F.FW_MBOX_STATUS_STAGE ≠ stageRECOVERY || (f.val = 0 && (decide (off < 8) || (decide (0x100000 ≤ off) && decide (off < 0x100014)))))
  | _ => true

/-- What an offset of BAR0 names: a register of the physical function's map, HOST_VF_INFO, a word of an MSI-X table, or nothing. -/
inductive Target where
  | reg (off : Nat)
  | vfInfo (f : Nat)
  | msix (i : Nat)
  | unmapped
  deriving DecidableEq, Repr

/-- The target of an offset in the BAR0 of a requester (R294, R295): a virtual function sees the contexts of its range that it owns (R299). The pending bits of MSI-X read zero: no message waits. -/
def target (z : Fixed) (q : Requester) (off : Nat) : Target :=
  match q with
  | .fn f =>
    if f.val = 0 then (if 0x8000 ≤ off ∧ off < 0x10000 then .msix ((off - 0x8000) / 4) else .reg off)
    else if off < 0x40 * (z.ctxRange f.val).2 then
      (if z.owner ((z.ctxRange f.val).1 + off / 0x40) = some f.val then .reg (0x1100000 + 0x40 * (z.ctxRange f.val).1 + off) else .unmapped)
    else if off = 0x8000 then .vfInfo f.val
    else if 0xC000 ≤ off ∧ off < 0xC400 then .msix (f.val * 32768 + (off - 0xC000) / 4)
    else .unmapped
  | _ => .reg off

/-- The macro index of an offset in the macro blocks. -/
def cimIndex (off : Nat) : Option (Nat × Nat) :=
  if 0x4000000 ≤ off ∧ off < 0x4400000 ∧ off % 0x4000 < 0x2200 then some ((off - 0x4000000) / 0x4000, off % 0x4000 / 0x80) else none

/-- The offset at which a register lives: a spare that serves a logical macro reads as that macro (*CIM_ registers*). -/
def Dev.homeOff (d : Dev) (off : Nat) : Nat :=
  match cimIndex off with
  | some (n, m) => 0x4000000 + 0x4000 * n + 0x80 * d.cimHome n m + off % 0x80
  | none => off

/-- Whether an offset names a macro index of a spare. -/
def spareIndex (off : Nat) : Bool :=
  match cimIndex off with
  | some (_, m) => decide (64 ≤ m)
  | none => false

/-! ### Reading -/

/-- The value of a field as a read returns it (R5): a locked field from the set-up, a WO field zero. -/
def readField (z : Fixed) (d : Dev) (a : Access) (f : Fld) : Nat :=
  match a with
  | .rwl => z.get f
  | .wo => 0
  | _ => d.get f

/-- The value of a register as a requester reads it (R5, R8, R303): the lock, the staging registers and the commit status stand apart. -/
def readReg (z : Fixed) (d : Dev) (q : Requester) (r : RegDecl) (i j : Nat) : Nat :=
  match r.reg with
  | .HOST_SETUP_LOCK => b01 z.setup.locked
  | .HOST_CTX_STAGE => match stageOwner q with
    | some o => tget 0 d.host.ctxStage (o * 8 + i)
    | none => 0
  | .HOST_CTX_COMMIT_STATUS => match stageOwner q with
    | some o => let p := tget (0, 0) d.host.commitStatus o
      p.1 + p.2 * 2 ^ 16
    | none => 0
  | _ => r.fields.foldl (fun a f => a + readField z d f.1 (f.2 i j) * 2 ^ (f.2 i j).lo) 0

/-- HOST_VF_INFO of a virtual function (R295). -/
def vfInfo (z : Fixed) (f : Nat) : Nat := (z.ctxRange f).1 + (z.ctxRange f).2 * 2 ^ 16 + z.partOfFn f * 2 ^ 25

/-- A 4-byte read (R11): a lower half latches its upper half, an upper half reads the latch where its tag is this register. -/
def read4 (z : Fixed) (d : Dev) (q : Requester) (off : Nat) : Nat × Dev :=
  if !d.decodes q off then (0, d) else
  match target z q off with
  | .unmapped => (0, d)
  | .vfInfo f => (vfInfo z f, d)
  | .msix i => (tget 0 d.host.msixTable i, d)
  | .reg o =>
    let o := d.homeOff o
    match regAt o with
    | some (r, i, j) =>
      let v := readReg z d q r i j
      if r.wide then (v % 2 ^ 32, { d with host := { d.host with rlatch := tset d.host.rlatch (stageNumber q) (o, v / 2 ^ 32) } })
      else (v, d)
    | none => match regAt (o - 4) with
      | some (r, i, j) =>
        if !r.wide || decide (o < 4) then (0, d)
        else match tfind d.host.rlatch (stageNumber q) with
          | some (tag, v) => (if tag = o - 4 then v else readReg z d q r i j / 2 ^ 32, d)
          | none => (readReg z d q r i j / 2 ^ 32, d)
      | none => (0, d)

/-- An 8-byte read (R11): a 64-bit register at once, or two 4-byte reads, the lower offset first. -/
def read8 (z : Fixed) (d : Dev) (q : Requester) (off : Nat) : Nat × Dev :=
  let whole : Option Nat := match target z q off with
    | .reg o => if !d.decodes q off then none else match regAt (d.homeOff o) with
      | some (r, i, j) => if r.wide then some (readReg z d q r i j) else none
      | none => none
    | _ => none
  match whole with
  | some v => (v, d)
  | none =>
    let (lo, d) := read4 z d q off
    let (hi, d) := read4 z d q (off + 4)
    (lo + hi * 2 ^ 32, d)

/-! ### Writing -/

/-- A write that acts on a register: the requester, the row of the register and its indices, whether it came through a spare's macro index, the value in the
register's own bit numbers; whether RW and RWL fields take it, and the bits `lo` to `hi - 1` that the access carries (R11). -/
structure RegWrite where
  q : Requester
  r : RegDecl
  i : Nat
  j : Nat
  spare : Bool
  v : Nat
  takes : Bool
  lo : Nat
  hi : Nat

/-- Whether the access carries a field. -/
def RegWrite.carries (w : RegWrite) (f : Fld) : Bool := decide (w.lo ≤ f.lo) && decide (f.lo < w.hi)

/-- The effect of a write on one field by its access type (R5, R6). -/
def writeField (z : Fixed) (d : Dev) (w : RegWrite) (a : Access) (f : Fld) : Fixed × Dev :=
  let x := bitsAt w.v f.lo f.len
  match a with
  | .rw => (z, if w.takes then d.put f x else d)
  | .rwl => (if w.takes && !z.setup.locked then { z with setup := { z.setup with rwl := RegFile.put z.setup.rwl f x } } else z, d)
  | .w1c => (z, if w.carries f then d.put f (d.get f - (d.get f &&& x)) else d)
  | .w1s => (z, if w.carries f then d.put f (d.get f ||| x) else d)
  | _ => (z, d)

/-- The effect of a write on every field of a register. -/
def writeFields (z : Fixed) (d : Dev) (w : RegWrite) : Fixed × Dev :=
  w.r.fields.foldl (fun (p : Fixed × Dev) f => writeField p.1 p.2 w f.1 (f.2 w.i w.j)) (z, d)

/-- The switchable function of a state word (R36). -/
def unitOf (r : Reg) (i j : Nat) : Option SwUnit :=
  match r with
  | .HOST_PART_STATE => some (.part (Fin.ofNat 4 i))
  | .CTX_STATE => some (.ctx (Fin.ofNat 16384 i))
  | .CORE_STATE => some (.core (Fin.ofNat 256 i))
  | .FAB_PORT_STATE => some (.port (Fin.ofNat 2 i))
  | .CIM_STATE => some (.cim (Fin.ofNat 256 i) (Fin.ofNat 68 j))
  | .CIM_BANK_A_STATE => some (.bank (Fin.ofNat 256 i) (Fin.ofNat 68 j) 0)
  | .CIM_BANK_B_STATE => some (.bank (Fin.ofNat 256 i) (Fin.ofNat 68 j) 1)
  | .MEM_STACK_STATE => some (.stack (Fin.ofNat 24 i))
  | .FW_PROC_STATE => some (.proc (Fin.ofNat 6 i))
  | _ => none

/-- A write of a state word (R31, R36): START_FAULT is cleared where a 1 is written, and EN is written by those whom it obeys. -/
def writeState (z : Fixed) (d : Dev) (w : RegWrite) (u : SwUnit) : Dev :=
  let d := if bitsAt w.v 6 1 = 1 then d.put (swFAULT (unitWord u)) 0 else d
  if enReaches z d w.q u && (!w.spare || w.q = .proc 5) then d.writeEn z u (w.v % 2) else d

/-- FW_MBOX_CMD: the commands of the boot mailbox and SERVICE (R338, R343, R344, R345); another code is not performed. -/
def writeMbox (z : Fixed) (d : Dev) (q : Requester) (code : Nat) : Dev :=
  match code with
  | 1 => d.mailbox q stageOPEN Dev.load
  | 2 => d.mailbox q stageVERIFIED (Dev.release z)
  | 3 => d.mailbox q stageRECOVERY Dev.beginFetch
  | 0x10 => if d.pfWrites q then d.serviceBegin else d
  | _ => if d.pfWrites q then d.wrongStage else d

/-- Whether a write of a requester reaches a register: a virtual function's only the state word and CTX_RESET of its contexts (R295), the test engine's only
those of the sequencer (R162, R163). -/
def RegWrite.permitted (w : RegWrite) : Bool :=
  match w.q with
  | .fn f => f.val = 0 || w.r.reg = .CTX_STATE || w.r.reg = .CTX_RESET
  | .proc _ => true
  | .testEngine => w.r.reg = .SEQ_MODE || w.r.reg = .SEQ_L0_CMD

/-- Registers whose write is more than its fields: the action of the block that owns it. -/
def writeAction (z : Fixed) (d : Dev) (w : RegWrite) : Option (Fixed × Dev) :=
  match w.r.reg with
  | .HOST_SETUP_LOCK => some ({ z with setup := { z.setup with locked := z.setup.locked || w.v % 2 = 1 } }, d)
  | .HOST_PART_CFG => some (layoutWrite z d (w.v % 4), d)
  | .HOST_CTX_STAGE => some (z, match stageOwner w.q with
    | some o => if w.takes then { d with host := { d.host with ctxStage := tset d.host.ctxStage (o * 8 + w.i) w.v } } else d
    | none => d)
  | .HOST_CTX_COMMIT => some (z, d.ctxCommit z w.q (w.v % 2 ^ 14))
  | .FW_MBOX_CMD => some (z, writeMbox z d w.q (w.v % 256))
  | .FW_FEAT_REQ => if d.stage = stageREADY then some (z, d) else none
  | .FW_LOG_CTRL => some (z, d.logControl w.v)
  | .FW_PROC_RESTART =>
    let k := Fin.ofNat 6 w.i
    some (z, if w.v % 2 = 1 && d.pfWrites w.q && d.feature 2 && k.val ≠ 0 then d.restartProc z k else d)
  | .FW_PROC_WDT =>
    let ms := w.v % 2 ^ 10
    some (z, if w.q = .proc (Fin.ofNat 6 w.i) && decide (1 ≤ ms) && decide (ms ≤ 1000) then (d.put (F.FW_PROC_WDT_TIMEOUT_MS w.i) ms).reloadWdt w.i else d)
  | .FW_PROC_STATUS => some (z, if w.q = .proc (Fin.ofNat 6 w.i) then (d.put (F.FW_PROC_STATUS_HEARTBEAT w.i) (d.get (F.FW_PROC_STATUS_HEARTBEAT w.i) + 1)).reloadWdt w.i else d)
  | .PWR_CAP => some (z, if w.q = .fn 0 then d.capWrite w.v else d)
  | .PWR_DIE_REQ => some (z, d.reqOp w.i (w.v % 8))
  | .CRS_IDLE_LEN => some (z, d.idleLenWrite w.v)
  | .CTX_RESET => some (z, if w.v % 2 = 1 && reachesCtx z w.q w.i then d.ctxReset w.i else d)
  | .POOL_VAULT_WIPE => some (z, if w.v % 2 = 1 && w.q = .proc 0 then d.wipeAll wipeRequest else d)
  | .SEQ_MODE => some (z, if level0Source w.q then d.l0Change w.i (w.v % 2) else d)
  | .SEQ_L0_CMD => some (z, d.level0Write w.q w.i w.v)
  | .HLT_TE_CMD => some (z, if w.takes then d.teCommand false w.v else d)
  | r => (unitOf r w.i w.j).map fun u => (z, writeState z d w u)

/-- What follows from the new value of a field. -/
def writeFollow (d : Dev) (w : RegWrite) : Dev :=
  match w.r.reg with
  | .HOST_QS_CFG => (d.busySync 0).busySync 1
  | .HLT_CHECK_CFG => d.modeEffSync
  | .FAB_PTP_CFG => d.ppsHold
  | _ => d

/-- A write acts on a register. -/
def writeReg (z : Fixed) (d : Dev) (w : RegWrite) : Fixed × Dev :=
  if !w.permitted then (z, d)
  else match writeAction z d w with
    | some p => p
    | none =>
      let p := writeFields z d w
      (p.1, writeFollow p.2 w)

/-- Keep or drop the write stage of a requester. -/
def Dev.setStaged (d : Dev) (q : Requester) (v : Option (Nat × Nat)) : Dev :=
  { d with host := { d.host with wstage := match v with
    | some p => tset d.host.wstage (stageNumber q) p
    | none => terase d.host.wstage (stageNumber q) } }

/-- A 4-byte write (R11): of a 32-bit register, of the lower half of a 64-bit one, which is staged, or of its upper half, which sets the whole. -/
def write4 (z : Fixed) (d : Dev) (q : Requester) (off v : Nat) : Fixed × Dev :=
  if !d.decodes q off then (z, d) else
  match target z q off with
  | .unmapped => (z, d)
  | .vfInfo _ => (z, d)
  | .msix i => (z, { d with host := { d.host with msixTable := tset d.host.msixTable i v } })
  | .reg o =>
    let spare := spareIndex o
    let o := d.homeOff o
    match regAt o with
    | some (r, i, j) =>
      if r.wide then writeReg z (d.setStaged q (some (o, v))) ⟨q, r, i, j, spare, v, false, 0, 32⟩
      else writeReg z d ⟨q, r, i, j, spare, v, true, 0, 32⟩
    | none => match regAt (o - 4) with
      | some (r, i, j) =>
        if !r.wide || decide (o < 4) then (z, d)
        else
          let present := readReg z d q r i j % 2 ^ 32
          let low := match tfind d.host.wstage (stageNumber q) with
            | some (tag, x) => if tag = o - 4 then x else present
            | none => present
          writeReg z (d.setStaged q none) ⟨q, r, i, j, spare, low + v * 2 ^ 32, true, 32, 64⟩
      | none => (z, d)

/-- An 8-byte write (R11): a 64-bit register at once, or two 4-byte writes, the lower offset first. -/
def write8 (z : Fixed) (d : Dev) (q : Requester) (off v : Nat) : Fixed × Dev :=
  let whole : Option RegWrite := match target z q off with
    | .reg o => if !d.decodes q off then none else match regAt (d.homeOff o) with
      | some (r, i, j) => if r.wide then some ⟨q, r, i, j, spareIndex o, v, true, 0, 64⟩ else none
      | none => none
    | _ => none
  match whole with
  | some w => writeReg z d w
  | none =>
    let (z, d) := write4 z d q off (v % 2 ^ 32)
    write4 z d q (off + 4) (v / 2 ^ 32)

/-- An access that is not naturally aligned, of 4 or 8 bytes and whole: counted, where the function decodes BAR0 at all (R10). -/
def Dev.accessError (d : Dev) (q : Requester) : Dev :=
  match q with
  | .fn f => if d.host.d3.contains f.val then d else d.bump F.HOST_CNT_ACCESS_ERR 1
  | _ => d

/-- The answer to a register read: in D3hot an Unsupported Request (R333). -/
def Dev.readAnswer (d : Dev) (q : Requester) (v : Nat) : Dev :=
  match q with
  | .fn f => d.emit (if d.host.d3.contains f.val then .unsupported f.val else .readReply q v)
  | _ => d.emit (.readReply q v)

/-! ### The rows -/

/-- REGISTER_WRITE (R5, R10, R11): a write of 4 or 8 bytes. -/
def execRegisterWrite (q : Requester) (off : Nat) (size8 : Bool) (val : BitVec 64) (s : State) : Host.Outcome State Fault Refusal := s.updFixed fun z d =>
  if off % (if size8 then 8 else 4) ≠ 0 then (z, d.accessError q)
  else if size8 then write8 z d q off val.toNat
  else write4 z d q off (val.toNat % 2 ^ 32)

/-- BAR0_ACCESS_ERROR (R10): a read or a write of `len` bytes; an access that is none of those that R10 names is not one, and does nothing here. -/
def execBar0AccessError (q : Requester) (read : Bool) (off len : Nat) (whole : Bool) (s : State) : Host.Outcome State Fault Refusal := s.upd fun _ d =>
  if whole && (len = 4 || len = 8) && off % len = 0 then d
  else if read then (d.accessError q).readAnswer q 0 else d.accessError q

/-- HALF_WRITE_STAGE (R11): a 4-byte write of the lower half of a 64-bit register; at another offset, what a 4-byte write does there. -/
def execHalfWriteStage (q : Requester) (off : Nat) (val : BitVec 32) (s : State) : Host.Outcome State Fault Refusal := s.updFixed fun z d =>
  if off % 4 ≠ 0 then (z, d.accessError q) else write4 z d q off val.toNat

/-- HALF_WRITE_COMMIT (R11): a 4-byte write of the upper half of a 64-bit register; at another offset, what a 4-byte write does there. -/
def execHalfWriteCommit (q : Requester) (off : Nat) (val : BitVec 32) (s : State) : Host.Outcome State Fault Refusal := s.updFixed fun z d =>
  if off % 4 ≠ 0 then (z, d.accessError q) else write4 z d q off val.toNat

/-- HALF_READ_LATCH (R11): a 4-byte read, of the lower half of a 64-bit register or at another offset, or an 8-byte read; the reply leaves the block. -/
def execHalfReadLatch (q : Requester) (off : Nat) (size8 : Bool) (s : State) : Host.Outcome State Fault Refusal := s.upd fun z d =>
  if off % (if size8 then 8 else 4) ≠ 0 then (d.accessError q).readAnswer q 0
  else
    let (v, d) := if size8 then read8 z d q off else read4 z d q off
    d.readAnswer q v

end Sys2Proof.Machine
end

