-- ==== Sys2Proof/Machine/Dispatch.lean ====
section
/-! DEFINITION. Sys2Proof/Machine/Dispatch.lean: which meaning each command has. -/
namespace Sys2Proof.Machine

open Sys2Proof

def exec (i : Instr) (s : State) : Host.Outcome State Fault Refusal :=
  match i with
  | .registerWrite q off size8 val => Sys2Proof.Machine.execRegisterWrite q off size8 val s
  | .bar0AccessError q read off len whole => Sys2Proof.Machine.execBar0AccessError q read off len whole s
  | .halfWriteStage q off val => Sys2Proof.Machine.execHalfWriteStage q off val s
  | .halfWriteCommit q off val => Sys2Proof.Machine.execHalfWriteCommit q off val s
  | .halfReadLatch q off size8 => Sys2Proof.Machine.execHalfReadLatch q off size8 s
  | .enWrite q u v => Sys2Proof.Machine.execEnWrite q u v s
  | .startingComplete u ok lanes ms => Sys2Proof.Machine.execStartingComplete u ok lanes ms s
  | .startTimeLimit u => Sys2Proof.Machine.execStartTimeLimit u s
  | .safePointReached u => Sys2Proof.Machine.execSafePointReached u s
  | .ctxCommit q c => Sys2Proof.Machine.execCtxCommit q c s
  | .setupLockClose q => Sys2Proof.Machine.execSetupLockClose q s
  | .layoutWrite q v => Sys2Proof.Machine.execLayoutWrite q v s
  | .ctxReset q c => Sys2Proof.Machine.execCtxReset q c s
  | .doorbell f page off acc => Sys2Proof.Machine.execDoorbell f page off acc s
  | .shadowReadReturn c tail head => Sys2Proof.Machine.execShadowReadReturn c tail head s
  | .descriptorFetchReturn c ds => Sys2Proof.Machine.execDescriptorFetchReturn c ds s
  | .descriptorDispatch c data => Sys2Proof.Machine.execDescriptorDispatch c data s
  | .descriptorComplete c id ns acts => Sys2Proof.Machine.execDescriptorComplete c id ns acts s
  | .msixModerationExpiry c => Sys2Proof.Machine.execMsixModerationExpiry c s
  | .hostReadError c k => Sys2Proof.Machine.execHostReadError c k s
  | .completionWriteRejected c id => Sys2Proof.Machine.execCompletionWriteRejected c id s
  | .qsAdmit q => Sys2Proof.Machine.execQsAdmit q s
  | .qsEvict q c ns => Sys2Proof.Machine.execQsEvict q c ns s
  | .evictionComplete c => Sys2Proof.Machine.execEvictionComplete c s
  | .bar4Access f off len data => Sys2Proof.Machine.execBar4Access f off len data s
  | .functionLevelReset f => Sys2Proof.Machine.execFunctionLevelReset f s
  | .d3hotEntry f => Sys2Proof.Machine.execD3hotEntry f s
  | .d0Return f => Sys2Proof.Machine.execD0Return f s
  | .matrix c => Sys2Proof.Machine.execMatrix c s
  | .weightWrite c => Sys2Proof.Machine.execWeightWrite c s
  | .bankSwap c => Sys2Proof.Machine.execBankSwap c s
  | .copy c data => Sys2Proof.Machine.execCopy c data s
  | .fill c => Sys2Proof.Machine.execFill c s
  | .convert c => Sys2Proof.Machine.execConvert c s
  | .stats c => Sys2Proof.Machine.execStats c s
  | .planLoad c => Sys2Proof.Machine.execPlanLoad c s
  | .planCancel c => Sys2Proof.Machine.execPlanCancel c s
  | .courseWait c => Sys2Proof.Machine.execCourseWait c s
  | .fence c => Sys2Proof.Machine.execFence c s
  | .eventWrite c => Sys2Proof.Machine.execEventWrite c s
  | .eventAdd c => Sys2Proof.Machine.execEventAdd c s
  | .eventSignal c => Sys2Proof.Machine.execEventSignal c s
  | .jobJoin c => Sys2Proof.Machine.execJobJoin c s
  | .jobLeave c => Sys2Proof.Machine.execJobLeave c s
  | .checkpointSaved c => Sys2Proof.Machine.execCheckpointSaved c s
  | .checkpointRestored c => Sys2Proof.Machine.execCheckpointRestored c s
  | .macroVector n m v => Sys2Proof.Machine.execMacroVector n m v s
  | .pvRowAttemptEnd n m pass => Sys2Proof.Machine.execPvRowAttemptEnd n m pass s
  | .singlePassWriteDone n m firstFails rewriteFails => Sys2Proof.Machine.execSinglePassWriteDone n m firstFails rewriteFails s
  | .bankSwapApply n m => Sys2Proof.Machine.execBankSwapApply n m s
  | .chunkPromote n row col => Sys2Proof.Machine.execChunkPromote n row col s
  | .totalsArrive n faultAt => Sys2Proof.Machine.execTotalsArrive n faultAt s
  | .blockPassEnd n => Sys2Proof.Machine.execBlockPassEnd n s
  | .spillResume n => Sys2Proof.Machine.execSpillResume n s
  | .scaleArrive n operand line group => Sys2Proof.Machine.execScaleArrive n operand line group s
  | .blockDrain n => Sys2Proof.Machine.execBlockDrain n s
  | .tileReplay n => Sys2Proof.Machine.execTileReplay n s
  | .tileStart op dr => Sys2Proof.Machine.execTileStart op dr s
  | .haloFetch op dr => Sys2Proof.Machine.execHaloFetch op dr s
  | .streamingLoadWrite n => Sys2Proof.Machine.execStreamingLoadWrite n s
  | .level0Command q n off => Sys2Proof.Machine.execLevel0Command q n off s
  | .l0OnlyChange q n v => Sys2Proof.Machine.execL0OnlyChange q n v s
  | .deckDraw op dr => Sys2Proof.Machine.execDeckDraw op dr s
  | .tileClaim op dr => Sys2Proof.Machine.execTileClaim op dr s
  | .tileFinish op dr => Sys2Proof.Machine.execTileFinish op dr s
  | .stealSearch op dr => Sys2Proof.Machine.execStealSearch op dr s
  | .tileReturn op dr => Sys2Proof.Machine.execTileReturn op dr s
  | .stallTimeout op => Sys2Proof.Machine.execStallTimeout op s
  | .bankAccess arr bank claims ecc => Sys2Proof.Machine.execBankAccess arr bank claims ecc s
  | .correctionWriteback arr bank => Sys2Proof.Machine.execCorrectionWriteback arr bank s
  | .atomicAdd who proc0 fl a w v ecc => Sys2Proof.Machine.execAtomicAdd who proc0 fl a w v ecc s
  | .atomicSwap who proc0 fl a w v ecc => Sys2Proof.Machine.execAtomicSwap who proc0 fl a w v ecc s
  | .poolPatrolRead die word ecc => Sys2Proof.Machine.execPoolPatrolRead die word ecc s
  | .borrowCopyDone arr spare => Sys2Proof.Machine.execBorrowCopyDone arr spare s
  | .vaultWipeRequest q => Sys2Proof.Machine.execVaultWipeRequest q s
  | .vaultWipeEnd die ok bank row => Sys2Proof.Machine.execVaultWipeEnd die ok bank row s
  | .stackRead a part fl source granule ecc other severe => Sys2Proof.Machine.execStackRead a part fl source granule ecc other severe s
  | .wallWrite a bytes part fl held => Sys2Proof.Machine.execWallWrite a bytes part fl held s
  | .assemblySlotTimeout w S => Sys2Proof.Machine.execAssemblySlotTimeout w S s
  | .stripeLockGrant w S cycles => Sys2Proof.Machine.execStripeLockGrant w S cycles s
  | .stackLinkParityError st reissueFails => Sys2Proof.Machine.execStackLinkParityError st reissueFails s
  | .rebuildStep w => Sys2Proof.Machine.execRebuildStep w s
  | .stackTempRead st t => Sys2Proof.Machine.execStackTempRead st t s
  | .stackPatrolRead st S granule ecc other severe => Sys2Proof.Machine.execStackPatrolRead st S granule ecc other severe s
  | .portLinkDown p => Sys2Proof.Machine.execPortLinkDown p s
  | .portLinkUp p => Sys2Proof.Machine.execPortLinkUp p s
  | .ethernetFrameDropped p fr => Sys2Proof.Machine.execEthernetFrameDropped p fr s
  | .syncReceived p ns fr gm err converged => Sys2Proof.Machine.execSyncReceived p ns fr gm err converged s
  | .syncTimeout ns => Sys2Proof.Machine.execSyncTimeout ns s
  | .slavePortMove => Sys2Proof.Machine.execSlavePortMove s
  | .timeLost ns => Sys2Proof.Machine.execTimeLost ns s
  | .ppsEdge ns => Sys2Proof.Machine.execPpsEdge ns s
  | .ppsAbsent ns => Sys2Proof.Machine.execPpsAbsent ns s
  | .idleLenWrite q v => Sys2Proof.Machine.execIdleLenWrite q v s
  | .courseBoundary => Sys2Proof.Machine.execCourseBoundary s
  | .slotSend slot => Sys2Proof.Machine.execSlotSend slot s
  | .dataFrame p fr ns => Sys2Proof.Machine.execDataFrame p fr ns s
  | .ackFrame p fr ns => Sys2Proof.Machine.execAckFrame p fr ns s
  | .ackDeadline course slot => Sys2Proof.Machine.execAckDeadline course slot s
  | .repairSlot p => Sys2Proof.Machine.execRepairSlot p s
  | .receiveDeadline ix => Sys2Proof.Machine.execReceiveDeadline ix s
  | .statusWordSend => Sys2Proof.Machine.execStatusWordSend s
  | .statusFrame p fr ns => Sys2Proof.Machine.execStatusFrame p fr ns s
  | .statusMissLimit m => Sys2Proof.Machine.execStatusMissLimit m s
  | .keystoneWordSend => Sys2Proof.Machine.execKeystoneWordSend s
  | .keystoneFrame p fr ns => Sys2Proof.Machine.execKeystoneFrame p fr ns s
  | .keystoneTakeover => Sys2Proof.Machine.execKeystoneTakeover s
  | .perstDeassert flashOk fuseBad => Sys2Proof.Machine.execPerstDeassert flashOk fuseBad s
  | .perstAssert => Sys2Proof.Machine.execPerstAssert s
  | .load q => Sys2Proof.Machine.execLoad q s
  | .loadLoader q => Sys2Proof.Machine.execLoadLoader q s
  | .imageFetchDone data => Sys2Proof.Machine.execImageFetchDone data s
  | .imageVerifyDone => Sys2Proof.Machine.execImageVerifyDone s
  | .release q => Sys2Proof.Machine.execRelease q s
  | .fwStartDone sup => Sys2Proof.Machine.execFwStartDone sup s
  | .trainingDone => Sys2Proof.Machine.execTrainingDone s
  | .clearingDone => Sys2Proof.Machine.execClearingDone s
  | .lcAdvance q img => Sys2Proof.Machine.execLcAdvance q img s
  | .revokeSlot q img => Sys2Proof.Machine.execRevokeSlot q img s
  | .svnAdvance q img => Sys2Proof.Machine.execSvnAdvance q img s
  | .burnCandidates q img => Sys2Proof.Machine.execBurnCandidates q img s
  | .flashWrite q img flashOk => Sys2Proof.Machine.execFlashWrite q img flashOk s
  | .debugUnlock q img => Sys2Proof.Machine.execDebugUnlock q img s
  | .fuseBurn mask => Sys2Proof.Machine.execFuseBurn mask s
  | .factoryTestCommand cmd => Sys2Proof.Machine.execFactoryTestCommand cmd s
  | .procRestart q k => Sys2Proof.Machine.execProcRestart q k s
  | .watchdogExpiry k ns => Sys2Proof.Machine.execWatchdogExpiry k ns s
  | .logEnable q v => Sys2Proof.Machine.execLogEnable q v s
  | .logRecordCommit proc level code a0 a1 dropped => Sys2Proof.Machine.execLogRecordCommit proc level code a0 a1 dropped s
  | .tamperDetect live => Sys2Proof.Machine.execTamperDetect live s
  | .debugPortAccess => Sys2Proof.Machine.execDebugPortAccess s
  | .getMeasurements via index sign => Sys2Proof.Machine.execGetMeasurements via index sign s
  | .getCertificate via slot off len => Sys2Proof.Machine.execGetCertificate via slot off len s
  | .challenge via slot nonce => Sys2Proof.Machine.execChallenge via slot nonce s
  | .keyExchange via p => Sys2Proof.Machine.execKeyExchange via p s
  | .ideKeyProgram via p stream => Sys2Proof.Machine.execIdeKeyProgram via p stream s
  | .capWrite q v => Sys2Proof.Machine.execCapWrite q v s
  | .reqOpWrite q die v => Sys2Proof.Machine.execReqOpWrite q die v s
  | .opRampDone die => Sys2Proof.Machine.execOpRampDone die s
  | .dutyPeriodEnd mean lost => Sys2Proof.Machine.execDutyPeriodEnd mean lost s
  | .powerWindowEnd eIn eIdle acts other stretch => Sys2Proof.Machine.execPowerWindowEnd eIn eIdle acts other stretch s
  | .droopTrip die => Sys2Proof.Machine.execDroopTrip die s
  | .droopRecover die cycles => Sys2Proof.Machine.execDroopRecover die cycles s
  | .thermalSensorRead t => Sys2Proof.Machine.execThermalSensorRead t s
  | .thermalLoop => Sys2Proof.Machine.execThermalLoop s
  | .macroSliceStart n => Sys2Proof.Machine.execMacroSliceStart n s
  | .sliceCopyDone n lost => Sys2Proof.Machine.execSliceCopyDone n lost s
  | .sliceTestDone n fails => Sys2Proof.Machine.execSliceTestDone n fails s
  | .sliceCopyBackDone n lost => Sys2Proof.Machine.execSliceCopyBackDone n lost s
  | .bankSliceStart arr bank => Sys2Proof.Machine.execBankSliceStart arr bank s
  | .knownSumCheck n m odd idle found => Sys2Proof.Machine.execKnownSumCheck n m odd idle found s
  | .teMacroBank factory cmd => Sys2Proof.Machine.execTeMacroBank factory cmd s
  | .teScratchpadBank factory cmd => Sys2Proof.Machine.execTeScratchpadBank factory cmd s
  | .teDiePoolBank factory cmd => Sys2Proof.Machine.execTeDiePoolBank factory cmd s
  | .teStackUnits factory cmd => Sys2Proof.Machine.execTeStackUnits factory cmd s
  | .teLevel0Command factory cmd => Sys2Proof.Machine.execTeLevel0Command factory cmd s
  | .auxPowerUp straps => Sys2Proof.Machine.execAuxPowerUp straps s
  | .auxPowerLoss => Sys2Proof.Machine.execAuxPowerLoss s
  | .pwrEnAssert => Sys2Proof.Machine.execPwrEnAssert s
  | .railUpDone => Sys2Proof.Machine.execRailUpDone s
  | .railUpTimeout => Sys2Proof.Machine.execRailUpTimeout s
  | .pwrEnDeassert => Sys2Proof.Machine.execPwrEnDeassert s
  | .vinUndervoltage => Sys2Proof.Machine.execVinUndervoltage s
  | .vinOvervoltage => Sys2Proof.Machine.execVinOvervoltage s
  | .overcurrent => Sys2Proof.Machine.execOvercurrent s
  | .stageFault => Sys2Proof.Machine.execStageFault s
  | .faultRelease => Sys2Proof.Machine.execFaultRelease s
  | .setEndpointId eid => Sys2Proof.Machine.execSetEndpointId eid s
  | .getSensorReading id => Sys2Proof.Machine.execGetSensorReading id s
  | .getStateSensorReadings id => Sys2Proof.Machine.execGetStateSensorReadings id s
  | .setNumericEffecterValue id v => Sys2Proof.Machine.execSetNumericEffecterValue id v s
  | .getNumericEffecterValue id => Sys2Proof.Machine.execGetNumericEffecterValue id s
  | .setEventReceiver eid => Sys2Proof.Machine.execSetEventReceiver eid s
  | .pollForPlatformEvent => Sys2Proof.Machine.execPollForPlatformEvent s
  | .platformEventSend => Sys2Proof.Machine.execPlatformEventSend s
  | .pldmUnsupported => Sys2Proof.Machine.execPldmUnsupported s
  | .sensorRefresh inlet stage vin current => Sys2Proof.Machine.execSensorRefresh inlet stage vin current s
  | .configurationRequest q => Sys2Proof.Machine.execConfigurationRequest q s
  | .pcieLinkTrained gen width flit => Sys2Proof.Machine.execPcieLinkTrained gen width flit s
  | .vinRise => Sys2Proof.Machine.execVinRise s
  | .gptpMessage p fr m => Sys2Proof.Machine.execGptpMessage p fr m s
  | .bankSliceTestDone arr spare fail => Sys2Proof.Machine.execBankSliceTestDone arr spare fail s
  | .teCommandEnd fails => Sys2Proof.Machine.execTeCommandEnd fails s
  | .bootClearDone cells bad => Sys2Proof.Machine.execBootClearDone cells bad s

end Sys2Proof.Machine
end

