-- ==== Sys2Proof/Machine/Step.lean ====
section
/-! DEFINITION. Sys2Proof/Machine/Step.lean: one step of the block: the command at the front of the queue, or, when none waits, a nanosecond of time. -/
namespace Sys2Proof.Machine

open Sys2Proof

/-- What the block does when no command waits: with the internal rails good a nanosecond passes, which moves fabric time (R242, log entry 1: DESIGN CHOICE, unsafe); without
them nothing happens. -/
def Dev.tick (d : Dev) : Dev := if d.aux.rails = .good then d.elapse 1 else d


/-- One step: the command at the front of the queue acts on the state with the rest of the queue. -/
def step (s : State) : Host.Outcome State Fault Refusal :=
  match s.pending with
  | [] => .next { s with d := s.d.tick }
  | c :: rest => exec c { s with pending := rest }

/-- The state with the command that a word spells at the front of its queue; no word spells one. -/
def State.withFetchWord (s : State) (nbits w : Nat) : State :=
  match decodeTableWord nbits w with
  | some c => { s with pending := c :: s.pending }
  | none => s

end Sys2Proof.Machine
end

