-- ==== Sys2Proof/WellFormed.lean ====
section
/-! DEFINITION. Sys2Proof/WellFormed.lean: the operands that a command may carry, where the types of its operands do not say it already. -/
namespace Sys2Proof

/-- Banks of an array (R185, R168). -/
def BankArray.banks : BankArray → Nat
  | .scratch _ => 16
  | .pool _ => 192
  | .deckHome => 64

/-- Rows of a bank (R187, R168). -/
def BankArray.rows : BankArray → Nat
  | .pool _ => 4096
  | _ => 1024

/-- Spare banks of an array (R185). -/
def BankArray.spares : BankArray → Nat
  | .scratch _ => 1
  | .pool _ => 4
  | .deckHome => 0

/-- Bytes of an interleave word (R187). -/
def BankArray.wordBytes : BankArray → Nat
  | .scratch _ => 32
  | _ => 64

/-- Bytes of an atomic operand (R194). -/
def AtomicWidth.bytes : AtomicWidth → Nat
  | .w4 => 4
  | .w8 => 8
  | .other n => n

/-- Whether a value fits the width of an atomic; the width of one that no bank performs is none of the two that R194 names. -/
def AtomicWidth.fits (w : AtomicWidth) (v : BitVec 64) : Bool := match w with
  | .other n => n ≠ 4 && n ≠ 8
  | _ => decide (v.toNat < 2 ^ (8 * w.bytes))

/-- An operation inside one word of a bank (R188, R194). -/
def BankOp.ok (arr : BankArray) : BankOp → Bool
  | .read => true
  | .write bytes => bytes.all fun p => decide (p.1 < arr.wordBytes)
  | .atomic _ w off v => decide (off + w.bytes ≤ arr.wordBytes) && w.fits v

/-- The size of BAR0 as a requester sees it (R293). -/
def Requester.barSize : Requester → Nat
  | .fn f => if f.val = 0 then 2 ^ 27 else 2 ^ 16
  | _ => 2 ^ 27

/-- Doorbell pages of a function (R293). -/
def doorbellPages (f : Fin 64) : Nat := if f.val = 0 then 16384 else 256

/-- An access that R10 lets act on registers: naturally aligned, of 4 or 8 bytes, with every byte enable set. -/
def barAccessOk (off len : Nat) (whole : Bool) : Bool := whole && (len = 4 || len = 8) && off % len = 0

/-- The TARGET that a word written to HLT_TE_CMD names. -/
def teTarget (cmd : BitVec 64) : Nat := cmd.toNat % 16

/-- Whether a command is one that the outside can send. -/
def Instr.wellFormed : Instr → Bool
  | .registerWrite q off size8 _ => decide (off + (if size8 then 8 else 4) ≤ q.barSize)
  | .bar0AccessError q _ off len whole => decide (off + len ≤ q.barSize) && !barAccessOk off len whole
  | .halfWriteStage q off _ => decide (off + 4 ≤ q.barSize) && off % 8 = 0
  | .halfWriteCommit q off _ => decide (off + 4 ≤ q.barSize) && off % 8 = 4
  | .halfReadLatch q off size8 => decide (off + (if size8 then 8 else 4) ≤ q.barSize)
  | .doorbell f page off acc => decide (page < doorbellPages f) && decide (off + acc.len ≤ 4096)
  | .descriptorFetchReturn _ ds => decide (ds.length ≤ 8)
  | .bar4Access _ off len data => decide (off + (match data with
      | some b => b.length
      | none => len) ≤ 2 ^ 39)
  | .bankAccess arr bank claims _ => decide (bank.val < arr.banks) && claims.all fun c => decide (c.row < arr.rows) && c.op.ok arr
  | .correctionWriteback arr bank => decide (bank.val < arr.banks)
  | .bankSliceStart arr bank => decide (bank.val < arr.banks)
  | .borrowCopyDone arr spare => decide (spare.val < arr.spares)
  | .bankSliceTestDone arr spare _ => decide (spare.val < arr.spares)
  | .atomicAdd _ _ _ a w v _ => decide (a < 2 ^ 48) && w.fits v
  | .atomicSwap _ _ _ a w v _ => decide (a < 2 ^ 48) && w.fits v
  | .stackRead a _ _ _ _ _ _ _ => decide (a < 2 ^ 48) && a % 256 = 0
  | .wallWrite a bytes _ _ _ => decide (a < 2 ^ 48) && decide (a + bytes.length ≤ 2 ^ 48)
  | .teMacroBank _ cmd => teTarget cmd = 1
  | .teScratchpadBank _ cmd => teTarget cmd = 2
  | .teDiePoolBank _ cmd => teTarget cmd = 3
  | .teStackUnits _ cmd => teTarget cmd = 4
  | .teLevel0Command _ cmd => teTarget cmd = 5
  | .logRecordCommit proc _ _ _ _ _ => proc.val ≠ 6
  | .pcieLinkTrained gen width _ => decide (1 ≤ gen.val) && [1, 2, 4, 8, 16].contains width.val
  | .bootClearDone cells _ => cells.all fun c => decide (c.2.1.val < c.1.banks + c.1.spares)
  | .enWrite _ _ _ => true
  | .startingComplete _ _ _ _ => true
  | .startTimeLimit _ => true
  | .safePointReached _ => true
  | .ctxCommit _ _ => true
  | .setupLockClose _ => true
  | .layoutWrite _ _ => true
  | .ctxReset _ _ => true
  | .shadowReadReturn _ _ _ => true
  | .descriptorDispatch _ _ => true
  | .descriptorComplete _ _ _ _ => true
  | .msixModerationExpiry _ => true
  | .hostReadError _ _ => true
  | .completionWriteRejected _ _ => true
  | .qsAdmit _ => true
  | .qsEvict _ _ _ => true
  | .evictionComplete _ => true
  | .functionLevelReset _ => true
  | .d3hotEntry _ => true
  | .d0Return _ => true
  | .matrix _ => true
  | .weightWrite _ => true
  | .bankSwap _ => true
  | .copy _ _ => true
  | .fill _ => true
  | .convert _ => true
  | .stats _ => true
  | .planLoad _ => true
  | .planCancel _ => true
  | .courseWait _ => true
  | .fence _ => true
  | .eventWrite _ => true
  | .eventAdd _ => true
  | .eventSignal _ => true
  | .jobJoin _ => true
  | .jobLeave _ => true
  | .checkpointSaved _ => true
  | .checkpointRestored _ => true
  | .macroVector _ _ _ => true
  | .pvRowAttemptEnd _ _ _ => true
  | .singlePassWriteDone _ _ _ _ => true
  | .bankSwapApply _ _ => true
  | .chunkPromote _ _ _ => true
  | .totalsArrive _ _ => true
  | .blockPassEnd _ => true
  | .spillResume _ => true
  | .scaleArrive _ _ _ _ => true
  | .blockDrain _ => true
  | .tileReplay _ => true
  | .tileStart _ _ => true
  | .haloFetch _ _ => true
  | .streamingLoadWrite _ => true
  | .level0Command _ _ _ => true
  | .l0OnlyChange _ _ _ => true
  | .deckDraw _ _ => true
  | .tileClaim _ _ => true
  | .tileFinish _ _ => true
  | .stealSearch _ _ => true
  | .tileReturn _ _ => true
  | .stallTimeout _ => true
  | .poolPatrolRead _ _ _ => true
  | .vaultWipeRequest _ => true
  | .vaultWipeEnd _ _ _ _ => true
  | .assemblySlotTimeout _ _ => true
  | .stripeLockGrant _ _ _ => true
  | .stackLinkParityError _ _ => true
  | .rebuildStep _ => true
  | .stackTempRead _ _ => true
  | .stackPatrolRead _ _ _ _ _ _ => true
  | .portLinkDown _ => true
  | .portLinkUp _ => true
  | .ethernetFrameDropped _ _ => true
  | .syncReceived _ _ _ _ _ _ => true
  | .syncTimeout _ => true
  | .slavePortMove => true
  | .timeLost _ => true
  | .ppsEdge _ => true
  | .ppsAbsent _ => true
  | .idleLenWrite _ _ => true
  | .courseBoundary => true
  | .slotSend _ => true
  | .dataFrame _ _ _ => true
  | .ackFrame _ _ _ => true
  | .ackDeadline _ _ => true
  | .repairSlot _ => true
  | .receiveDeadline _ => true
  | .statusWordSend => true
  | .statusFrame _ _ _ => true
  | .statusMissLimit _ => true
  | .keystoneWordSend => true
  | .keystoneFrame _ _ _ => true
  | .keystoneTakeover => true
  | .perstDeassert _ _ => true
  | .perstAssert => true
  | .load _ => true
  | .loadLoader _ => true
  | .imageFetchDone _ => true
  | .imageVerifyDone => true
  | .release _ => true
  | .fwStartDone _ => true
  | .trainingDone => true
  | .clearingDone => true
  | .lcAdvance _ _ => true
  | .revokeSlot _ _ => true
  | .svnAdvance _ _ => true
  | .burnCandidates _ _ => true
  | .flashWrite _ _ _ => true
  | .debugUnlock _ _ => true
  | .fuseBurn _ => true
  | .factoryTestCommand _ => true
  | .procRestart _ _ => true
  | .watchdogExpiry _ _ => true
  | .logEnable _ _ => true
  | .tamperDetect _ => true
  | .debugPortAccess => true
  | .getMeasurements _ _ _ => true
  | .getCertificate _ _ _ _ => true
  | .challenge _ _ _ => true
  | .keyExchange _ _ => true
  | .ideKeyProgram _ _ _ => true
  | .capWrite _ _ => true
  | .reqOpWrite _ _ _ => true
  | .opRampDone _ => true
  | .dutyPeriodEnd _ _ => true
  | .powerWindowEnd _ _ _ _ _ => true
  | .droopTrip _ => true
  | .droopRecover _ _ => true
  | .thermalSensorRead _ => true
  | .thermalLoop => true
  | .macroSliceStart _ => true
  | .sliceCopyDone _ _ => true
  | .sliceTestDone _ _ => true
  | .sliceCopyBackDone _ _ => true
  | .knownSumCheck _ _ _ _ _ => true
  | .auxPowerUp _ => true
  | .auxPowerLoss => true
  | .pwrEnAssert => true
  | .railUpDone => true
  | .railUpTimeout => true
  | .pwrEnDeassert => true
  | .vinUndervoltage => true
  | .vinOvervoltage => true
  | .overcurrent => true
  | .stageFault => true
  | .faultRelease => true
  | .setEndpointId _ => true
  | .getSensorReading _ => true
  | .getStateSensorReadings _ => true
  | .setNumericEffecterValue _ _ => true
  | .getNumericEffecterValue _ => true
  | .setEventReceiver _ => true
  | .pollForPlatformEvent => true
  | .platformEventSend => true
  | .pldmUnsupported => true
  | .sensorRefresh _ _ _ _ => true
  | .configurationRequest _ => true
  | .vinRise => true
  | .gptpMessage _ _ _ => true
  | .teCommandEnd _ => true

end Sys2Proof
end

