-- ==== Sys2Proof/Safety.lean ====
section
/-! DEFINITION. Sys2Proof/Safety.lean: what the block never stops for, the invariants of a run, and what is burned once and for all. -/
namespace Sys2Proof.Safety

open Sys2Proof Sys2Proof.Machine

/-- A step that answers a next state. -/
def Runs (o : Host.Outcome State Fault Refusal) : Prop := ∃ t, o = .next t

/-- The state that follows has the device `b` but for register fields, and of those only the listed ones may differ from before: the frame of a command. -/
def RegsFrom (s : State) (b : Dev) (t : State) (l : List Fld) : Prop :=
  t = { s with d := { b with regs := t.d.regs } } ∧ ∀ f : Fld, f.key ∉ l.map Fld.key → t.d.get f = s.d.get f

/-- Only the listed register fields may differ. -/
def OnlyRegs (s t : State) (l : List Fld) : Prop := RegsFrom s s.d t l

/-- A requester reaches every register of BAR0 now: the physical function whose BAR0 is decoded, or a Helam processor (R294, R333, R336). -/
def Reaches (s : State) (q : Requester) : Prop := fullAccess q = true ∧ s.d.barOpen q = true

/-! ### Dispatch of a descriptor -/

/-- The first descriptor of a context may be dispatched and it is the context's turn (R309, R311, R326). -/
def Turn (s : State) (c : Nat) (q : Fetched) : Prop := s.d.canDispatch s.z c = some q ∧ s.d.nextTurn s.z = some c ∧ q.bad = false

/-- The in-flight descriptor that a dispatch makes of it. -/
def flightOf (s : State) (c : Nat) (q : Fetched) : Flight := newFlight c q s.d.host.nextId none true

/-- The device once the descriptor has left the queue of its context and is in flight, before it does anything. -/
def taken (s : State) (c : Nat) (q : Fetched) : Dev :=
  let d := s.d.modCtx c fun r => { r with queue := r.queue.drop 1 }
  let d := { d with host := { d.host with lastDispatch := tset d.host.lastDispatch (enPriority q.entry) c, nextId := s.d.host.nextId + 1 } }
  d.setFlight s.d.host.nextId (flightOf s c q)

/-- The state that follows has the given device, and the fixed part and the queue of before. -/
def Gives (s : State) (o : Host.Outcome State Fault Refusal) (d : Dev) : Prop := o = .next { s with d := d }

/-- A descriptor's work ends with a status. -/
def ended (d : Dev) (fl st : Nat) : Dev := d.modFlight fl fun f => f.finish st

/-! ### The work of a core -/

/-- The signed value of a slot of a row: its column pairs, P counting up and N down, combined by shift-add (R39, R44, R46). -/
def slotValue (cells w s : Nat) : Int :=
  isum ((List.range w).map fun i => (((bitsAt cells (s * w + i) 1 : Nat) : Int) - ((bitsAt cells (128 + (s * w + i)) 1 : Nat) : Int)) * (2 ^ i : Nat))

/-- A core works on a tile of an operation, at these level-1 and level-0 tiles of its walk (R145). -/
structure Walks (s : State) (n fl o : Nat) (t1 t0 : TilePos) : Prop where
  op : s.d.coreOp n = some (fl, o)
  l1 : coreT1 o n (s.d.coreRun n) = some t1
  l0 : coreT0 o n (s.d.coreRun n) = some t0

/-- The next vector that macro `m`, the one at K tile `kt` and column `nb` of the operation, may drive is `v`: it is the operation's turn in the macro's bank
order, the core may go on, and what the vector needs is staged and loaded (R60, R145, R147, R160). -/
structure VectorTurn (s : State) (n m v fl o kt nb : Nat) (t1 t0 : TilePos) : Prop where
  walk : Walks s n fl o t1 t0
  place : kt = (if opKind o = 0 then m else m - 56) / opNCols o ∧ nb = (if opKind o = 0 then m else m - 56) % opNCols o ∧ opMacro o kt nb = m
  walked : (walkedK o t0).contains kt = true
  fresh : (s.d.coreRun n).driven.contains (m, v) = false
  earlier : v = 0 ∨ (s.d.coreRun n).driven.contains (m, v - 1) = true
  below : ((walkedK o t0).all fun k => decide (kt ≤ k) ||
    (List.range (opNCols o)).all fun b => (s.d.coreRun n).driven.contains (opMacro o k b, 31)) = true
  turn : ∃ rest, (s.d.macroRun n m).order = .op fl :: rest
  loaded : opKind o = 0 ∨ (s.d.coreRun n).loadActive = some (loadKey o t0)
  on : s.d.coreOn n = true
  free : s.d.bit (F.CORE_STATE_HELD n) = false
  resumed : (s.d.coreRun n).needResume = false
  staged : (s.d.coreRun n).staged ≠ []

/-- The cells and activation codes that a vector puts on the rows of a macro (R43, R145). -/
def vectorRows (s : State) (n m v o kt : Nat) : VecRows :=
  ((List.range 512).map fun k => s.d.row n m (s.d.activeBank n m) k % 2 ^ 256).zip
    ((((nth [] (s.d.coreRun n).staged v).drop (512 * kt)).take 512).map (ofSigned (opPlanes o)))

/-- Whether a macro counts in wide groups for a vector: sampled at the first vector of a tile (R50, R51). -/
def vectorWide (s : State) (n m o : Nat) : Bool :=
  if (s.d.macroRun n m).tileOpen then s.d.bit (F.CIM_MODE_WIDE_EFFECTIVE n m) else s.d.bit (F.CIM_MODE_WIDE n m) && decide (1 ≤ opTap o)

/-- The operation that a core works on, if it works on one, runs: no status has been set. -/
def coreRuns (s : State) (n : Nat) : Bool := (s.d.coreOp n).all fun p => (s.d.flight p.1).all fun f => f.status = stOK

/-- A core without a streaming load that is being written or swapped in, whose operation, if it works on one, runs (R160). -/
def loadsIdle (s : State) (n : Nat) : Bool :=
  coreRuns s n && ((s.d.coreOp n).isNone || ((s.d.coreRun n).loadWriting.isNone && (s.d.coreRun n).loadSwap.isNone))

/-- A core with no swap of a streaming load under way, whose operation, if it works on one, runs: a write may end in its macros (R58, R160). -/
def writesSettle (s : State) (n : Nat) : Bool := coreRuns s n && ((s.d.coreOp n).isNone || (s.d.coreRun n).loadSwap.isNone)

/-- Whether the rows of A of the first level-0 tile that core `n` stages for tile `t` of an operation fit its staging ring and may be read (R138, R145, R164). -/
def stageable (s : State) (o part dr t n : Nat) : Bool :=
  decide (opStage1Off o + opStage1Slots o * (32 * opTK o 0 * fmtWidth (opAFmt o) / 8) ≤ 0x80000) &&
    (coreT0 o n { drawer := dr, tile := t }).all fun t0 =>
      (firstUnread s.z s.d (some part) (aRanges o t0.m 32 t0.k (t0.k + opTK o 0) ++ expRanges o t0.m t0.k (t0.k + opTK o 0))).isNone

/-- The parts of a state that most commands leave: memory, cells, outputs, and the fixed part and queue of the block. -/
def Keeps (s t : State) : Prop :=
  t.d.mem = s.d.mem ∧ t.d.cells = s.d.cells ∧ t.d.out = s.d.out ∧ t.d.now = s.d.now ∧ t.z = s.z ∧ t.pending = s.pending

/-- The commands in which the module can pass a fundamental reset or lose its main power: only these open the set-up lock (R6, R301, R430). -/
def opensLock : Instr → Bool
  | .perstAssert | .pwrEnDeassert | .vinUndervoltage | .vinOvervoltage | .overcurrent | .stageFault | .auxPowerLoss | .thermalSensorRead _ | .stackTempRead _ _ => true
  | _ => false

/-- The memory keeps its canonical form. -/
def MemoryOk (s : State) : Prop := Memory.wf s.d.mem = true

/-- Every bit that is set in one number is set in another. -/
def Covers (a b : Nat) : Prop := a &&& b = a

/-- No fuse that is burned in one block is unburned in another (R357): life-cycle bits, root slots, security version, identity, repairs. -/
structure FusesKept (a b : Fuses) : Prop where
  lc : Covers a.lc b.lc
  valid : Covers a.valid b.valid
  revoked : Covers a.revoked b.revoked
  svn : a.svn ≤ b.svn
  scalar : Covers a.scalar b.scalar
  key : Covers a.key b.key
  repairs : a.repairs <+: b.repairs

end Sys2Proof.Safety
end

