-- ==== Sys2Proof/Certificates/Slice0/Obligations.lean ====
section
/-! DEFINITION. Sys2Proof/Certificates/Slice0/Obligations.lean: the statements for the provers, from the numbered rules of the spec. -/

open Sys2Proof Sys2Proof.Machine Sys2Proof.Safety

/-! ### Registers and the enable state machine -/

/-- A command at the front of the queue acts on the state with the rest of the queue; no command faults or is refused, and none touches the queue. On an empty queue a
nanosecond passes where the rails are good (log entry 1, the model's choice), and nothing happens where they are not. -/
def Obligations.commands_run_from_the_queue : Prop :=
  (∀ (s : State) (c : Instr) (rest : List Instr), s.pending = c :: rest → step s = exec c { s with pending := rest }) ∧
  (∀ (s : State) (c : Instr), ∃ t, exec c s = .next t ∧ t.pending = s.pending) ∧
  (∀ s : State, s.pending = [] → (s.d.aux.rails = .good → Gives s (step s) (s.d.elapse 1)) ∧ (s.d.aux.rails ≠ .good → step s = .next s))

/-- R7: after reset every register field but those of the fuse shadow and the service nonce holds the value of the Reset column; the lock is open, boot is at ROM, no
command waits, and the memory is in its canonical form. Where the spec leaves a choice the model's stands: log entries 5, 7. -/
def Obligations.reset_state : Prop :=
  (∀ f : Fld, f.key ∉ (Fuses.part.shadow ++ nonceFields 0).map (fun p => p.1.key) → State.reset.d.get f = f.rst) ∧
  (∀ f : Fld, State.reset.z.get f = f.rst) ∧
  State.reset.z.setup.locked = false ∧ State.reset.d.stage = stageROM ∧ State.reset.pending = [] ∧ MemoryOk State.reset

/-- R5, R8, R10, R11: A 4-byte write of a 32-bit register by a requester that reaches it sets its RW fields (MEM_ASM_CFG, MEM_SCRUB), clears the bits of a W1C field that
carry a 1 (LCS_TAMPER), and changes nothing where the register is RO (HOST_ID) or none is mapped. Nothing else changes. An access that is not a whole, naturally aligned
one of 4 or 8 bytes counts in HOST_CNT_ACCESS_ERR; a read of that kind answers zero, a write is discarded. Of HOST_FN_BAR4 of the physical function, a write of the lower
half is staged and changes no register; a write of the upper half then sets the whole register and empties the stage; a read of the lower half answers it and latches the
upper half. Where the spec leaves a choice the model's stands: log entry 101. -/
def Obligations.register_accesses : Prop :=
  (∀ (s : State) (q : Requester) (v : BitVec 64), Reaches s q →
    (∃ t, exec (.registerWrite q 0x6030004 false v) s = .next t ∧
      t.d.get F.MEM_ASM_CFG_TIMEOUT_NS = v.toNat % 2 ^ 12 ∧ OnlyRegs s t [F.MEM_ASM_CFG_TIMEOUT_NS]) ∧
    (∃ t, exec (.registerWrite q 0x6030008 false v) s = .next t ∧
      t.d.get F.MEM_SCRUB_EN = v.toNat % 2 ∧ t.d.get F.MEM_SCRUB_INTERVAL_H = v.toNat / 2 ^ 8 % 2 ^ 8 ∧
      OnlyRegs s t [F.MEM_SCRUB_EN, F.MEM_SCRUB_INTERVAL_H]) ∧
    (∃ t, exec (.registerWrite q 0x200008 false v) s = .next t ∧
      (s.d.get F.LCS_TAMPER_LATCHED < 2 ^ 6 →
        t.d.get F.LCS_TAMPER_LATCHED = s.d.get F.LCS_TAMPER_LATCHED - (s.d.get F.LCS_TAMPER_LATCHED &&& v.toNat % 2 ^ 6)) ∧
      OnlyRegs s t [F.LCS_TAMPER_LATCHED]) ∧
    exec (.registerWrite q 0x0 false v) s = .next s ∧
    exec (.registerWrite q 0x20 false v) s = .next s) ∧
  (∀ (s : State) (f : Fin 64) (off len : Nat) (whole : Bool), s.d.host.d3.contains f.val = false → barAccessOk off len whole = false →
    (∃ t, exec (.bar0AccessError (.fn f) false off len whole) s = .next t ∧
      t.d.get F.HOST_CNT_ACCESS_ERR = (s.d.get F.HOST_CNT_ACCESS_ERR + 1) % 2 ^ 64 ∧ OnlyRegs s t [F.HOST_CNT_ACCESS_ERR]) ∧
    (∃ t, exec (.bar0AccessError (.fn f) true off len whole) s = .next t ∧
      t.d.get F.HOST_CNT_ACCESS_ERR = (s.d.get F.HOST_CNT_ACCESS_ERR + 1) % 2 ^ 64 ∧
      RegsFrom s (s.d.emit (.readReply (.fn f) 0)) t [F.HOST_CNT_ACCESS_ERR])) ∧
  (∀ (s : State) (q : Requester) (v w : BitVec 32), Reaches s q →
    (∃ t, exec (.halfWriteStage q 0x400 v) s = .next t ∧ tfind t.d.host.wstage (stageNumber q) = some (0x400, v.toNat) ∧
      t = { s with d := { s.d with host := { s.d.host with wstage := t.d.host.wstage } } } ∧
      ∃ u, exec (.halfWriteCommit q 0x404 w) t = .next u ∧
        u.d.get (F.HOST_FN_BAR4_BASE 0) = (w.toNat % 2 ^ 16) * 2 ^ 32 + v.toNat ∧ tfind u.d.host.wstage (stageNumber q) = none ∧
        RegsFrom s { s.d with host := { s.d.host with wstage := u.d.host.wstage } } u [F.HOST_FN_BAR4_BASE 0]) ∧
    (s.d.get (F.HOST_FN_BAR4_BASE 0) < 2 ^ 48 →
      ∃ t, exec (.halfReadLatch q 0x400 false) s = .next t ∧
        t.d.out = s.d.out ++ [.readReply q (s.d.get (F.HOST_FN_BAR4_BASE 0) % 2 ^ 32)] ∧
        tfind t.d.host.rlatch (stageNumber q) = some (0x400, s.d.get (F.HOST_FN_BAR4_BASE 0) / 2 ^ 32) ∧
        t = { s with d := { s.d with host := { s.d.host with rlatch := t.d.host.rlatch }, out := t.d.out } }))

/-- R30, R31, R32, R33, R36: The state machine of a core. EN = 1 takes it from OFF to STARTING, which clears its scratchpad; the end of its start takes it to ON and
counts a start; a start past its time limit takes it to STOPPING; at its safe point it is OFF. CLEARING of its scratchpad reads 1 while it is STARTING (R209). EN = 1
while a core is STOPPING only sets ENABLE_PENDING, and EN = 0 while it is STARTING waits for the start to end. -/
def Obligations.core_enable_machine : Prop :=
  (∀ (s : State) (q : Requester) (n : Fin 256) (lanes : BitVec 6) (ms : BitVec 10), enReaches s.z s.d q (.core n) = true →
    (s.d.coreState n.val = codeOFF →
      ∃ t, exec (.enWrite q (.core n) 1) s = .next t ∧ t.d.get (F.CORE_STATE_EN n) = 1 ∧ t.d.coreState n.val = codeSTARTING ∧
        t.d.mem = Memory.clear s.d.mem (scratchAddr n.val 0) 0x80000 ∧ t.d.get (F.POOL_SP_STATUS_CLEARING n) = 1 ∧
        RegsFrom s { s.d with mem := t.d.mem, core := terase s.d.core n.val, starts := terase s.d.starts (unitWord (.core n)) } t
          [F.CORE_STATE_EN n, F.CORE_STATE_STATE n, F.CORE_STATE_ENABLE_PENDING n, F.POOL_SP_STATUS_CLEARING n]) ∧
    (s.d.coreState n.val = codeSTARTING → s.d.get (F.CORE_STATE_EN n) = 1 → tfind s.d.starts (unitWord (.core n)) ≠ some 2 →
      ∃ t, exec (.startingComplete (.core n) true lanes ms) s = .next t ∧ t.d.coreState n.val = codeON ∧
        t.d.get (F.CORE_STATE_STARTS n) = (s.d.get (F.CORE_STATE_STARTS n) + 1) % 2 ^ 16 ∧ t.d.get (F.POOL_SP_STATUS_CLEARING n) = 0 ∧
        RegsFrom s { s.d with starts := t.d.starts } t [F.CORE_STATE_STATE n, F.CORE_STATE_STARTS n, F.POOL_SP_STATUS_CLEARING n]) ∧
    (s.d.coreState n.val = codeSTARTING →
      ∃ t, exec (.startTimeLimit (.core n)) s = .next t ∧ t.d.coreState n.val = codeSTOPPING ∧
        RegsFrom s { s.d with starts := t.d.starts } t [F.CORE_STATE_STATE n, F.POOL_SP_STATUS_CLEARING n]) ∧
    (s.d.coreState n.val = codeSTOPPING → s.d.get (F.CORE_STATE_ENABLE_PENDING n) = 0 → tfind s.d.starts (unitWord (.core n)) = none →
      ∃ t, exec (.safePointReached (.core n)) s = .next t ∧ t.d.coreState n.val = codeOFF ∧
        RegsFrom s { s.d with starts := t.d.starts } t [F.CORE_STATE_STATE n])) ∧
  (∀ (s : State) (q : Requester) (n : Fin 256), enReaches s.z s.d q (.core n) = true →
    (s.d.coreState n.val = codeSTOPPING → ∃ t, exec (.enWrite q (.core n) 1) s = .next t ∧ t.d.coreState n.val = codeSTOPPING ∧
      t.d.get (F.CORE_STATE_ENABLE_PENDING n) = 1 ∧ OnlyRegs s t [F.CORE_STATE_EN n, F.CORE_STATE_ENABLE_PENDING n]) ∧
    (s.d.coreState n.val = codeSTARTING → ∃ t, exec (.enWrite q (.core n) 0) s = .next t ∧ t.d.coreState n.val = codeSTARTING ∧
      t.d.get (F.CORE_STATE_EN n) = 0 ∧ OnlyRegs s t [F.CORE_STATE_EN n]))

/-- R5, R6, R297, R301: The physical function or a Helam processor closes the set-up lock; LAYOUT takes a value that is not reserved while the lock is open and every
partition is OFF, and keeps its value otherwise; once RELEASE has sampled it (R345) the layout in effect stays until the next fundamental reset. An RWL field (CTX_COUNT
of a function's entry among them) is set by an 8-byte write while the lock is open and keeps its value once it is closed. -/
def Obligations.setup_lock_and_layout : Prop :=
  (∀ (s : State) (q : Requester) (v : Fin 4), Reaches s q →
    exec (.setupLockClose q) s = .next { s with z := { s.z with setup := { s.z.setup with locked := true } } } ∧
    (s.z.setup.locked = false → (∀ p < 4, s.d.partState p = codeOFF) → v ≠ 3 →
      ∃ t, exec (.layoutWrite q v) s = .next t ∧ t.z.get F.HOST_PART_CFG_LAYOUT = v.val ∧ t.z.layout = s.z.setup.layout.getD v.val ∧ t.z.setup.locked = false ∧ t.z.fuse = s.z.fuse ∧ t.d = s.d ∧
        t.pending = s.pending ∧ ∀ f : Fld, f.key ≠ F.HOST_PART_CFG_LAYOUT.key → t.z.get f = s.z.get f) ∧
    (s.z.setup.locked = true ∨ v = 3 ∨ (∃ p < 4, s.d.partState p ≠ codeOFF) → exec (.layoutWrite q v) s = .next s)) ∧
  (∀ (s : State) (q : Requester) (v : BitVec 64), Reaches s q →
    (s.z.setup.locked = true → exec (.registerWrite q 0x208 true v) s = .next s) ∧
    (s.z.setup.locked = false → ∃ t, exec (.registerWrite q 0x208 true v) s = .next t ∧ t.d = s.d ∧ t.pending = s.pending ∧
      t.z.partOfFn 1 = v.toNat % 4 ∧ t.z.get (F.HOST_FN_CFG_CTX_FIRST 1) = v.toNat / 2 ^ 8 % 2 ^ 14 ∧
      t.z.get (F.HOST_FN_CFG_CTX_COUNT 1) = v.toNat / 2 ^ 32 % 2 ^ 15 ∧ t.z.setup.locked = false ∧ t.z.fuse = s.z.fuse))

/-- R302, R303: a commit by the physical function of a staged entry that passes every check, for a context that is OFF, replaces its entry and reports result 0. Where the
spec leaves a choice the model's stands: log entry 115. -/
def Obligations.context_commit : Prop :=
  ∀ (s : State) (c : Fin 16384), s.d.barOpen (.fn 0) = true → s.d.ctxState c.val = codeOFF →
    commitResult s.z s.d c.val ((List.range 8).foldl (fun a i => a + tget 0 s.d.host.ctxStage i * 2 ^ (64 * i)) 0) = 0 →
    (∀ i < 8, tget 0 s.d.host.ctxStage i < 2 ^ 64) →
    ∃ t, exec (.ctxCommit (.fn 0) c) s = .next t ∧ tget (0, 0) t.d.host.commitStatus 0 = (0, c.val) ∧
      (∀ i < 8, t.d.get (F.CTX_ENTRY c i) = tget 0 s.d.host.ctxStage i) ∧ t.z = s.z ∧ t.pending = s.pending ∧ t.d.mem = s.d.mem ∧ t.d.out = s.d.out

/-- R330: CTX_RESET of a context that is OFF, by a requester that reaches it, sets FETCHED and CPL_COUNT to zero (and the energy of the context); where the context is not
OFF it is discarded. -/
def Obligations.context_reset_zeroes_the_counts : Prop :=
  ∀ (s : State) (q : Requester) (c : Fin 16384), s.d.barOpen q = true → reachesCtx s.z q c.val = true →
    (s.d.ctxState c.val = codeOFF →
      ∃ t, exec (.ctxReset q c) s = .next t ∧ t.d.get (F.CTX_PROGRESS_FETCHED c) = 0 ∧ t.d.get (F.CTX_PROGRESS_CPL_COUNT c) = 0 ∧
        OnlyRegs s t [F.CTX_PROGRESS_FETCHED c, F.CTX_PROGRESS_CPL_COUNT c, F.PWR_CTX_ENERGY c]) ∧
    (s.d.ctxState c.val ≠ codeOFF → exec (.ctxReset q c) s = .next s)

/-- R33: a unit that goes from OFF to STARTING by a write of EN has been cleared: the scratchpad of a core, every row of both banks of a macro, every row of a bank, the
die pools of a partition with their vaults. -/
def Obligations.starting_clears_tenant_data : Prop :=
  ∀ (s : State) (q : Requester) (n : Fin 256) (m : Fin 68) (b : Fin 2) (p : Fin 4),
    (enReaches s.z s.d q (.core n) = true → s.d.stateOf (.core n) = codeOFF → ∃ t, exec (.enWrite q (.core n) 1) s = .next t ∧ t.d.stateOf (.core n) = codeSTARTING ∧
      ∀ a < 0x80000, Memory.read t.d.mem (scratchAddr n a) = 0) ∧
    (m.val < 64 → enReaches s.z s.d q (.cim n m) = true → s.d.stateOf (.cim n m) = codeOFF → ∃ t, exec (.enWrite q (.cim n m) 1) s = .next t ∧
      t.d.stateOf (.cim n m) = codeSTARTING ∧ (∀ bank < 2, ∀ r < 512, t.d.row n m bank r = 0) ∧ t.d.mem = s.d.mem) ∧
    (m.val < 64 → enReaches s.z s.d q (.bank n m b) = true → s.d.stateOf (.bank n m b) = codeOFF → ∃ t, exec (.enWrite q (.bank n m b) 1) s = .next t ∧
      t.d.stateOf (.bank n m b) = codeSTARTING ∧ (∀ r < 512, t.d.row n m b r = 0) ∧ t.d.mem = s.d.mem) ∧
    (enReaches s.z s.d q (.part p) = true → s.d.stateOf (.part p) = codeOFF → ∃ t, exec (.enWrite q (.part p) 1) s = .next t ∧ t.d.stateOf (.part p) = codeSTARTING ∧
      (∀ die < 4, s.z.partOfDie die = p.val → ∀ a < vaultOff + 0x100000, Memory.read t.d.mem (poolAddr die a) = 0) ∧ t.d.cells = s.d.cells)

/-- R295: through its BAR0 a virtual function writes nothing but the state words and CTX_RESET of its contexts and its MSI-X table: an aligned 4-byte write elsewhere
changes no register, no memory and no unit (at most its own write stage). Where the spec leaves a choice the model's stands: log entry 103. -/
def Obligations.virtual_function_is_confined : Prop :=
  ∀ (s : State) (f : Fin 64) (off : Nat) (v : BitVec 64), f ≠ 0 → off % 4 = 0 → (off % 0x40 ≠ 0 ∧ off % 0x40 ≠ 0x20 ∨ 0x40 * (s.z.ctxRange f.val).2 ≤ off) →
    ∃ t, exec (.registerWrite (.fn f) off false v) s = .next t ∧
      t = { s with d := { s.d with host := { s.d.host with wstage := t.d.host.wstage, msixTable := t.d.host.msixTable } } } ∧
      (off < 0xC000 ∨ 0xC400 ≤ off → t.d.host.msixTable = s.d.host.msixTable)

/-- R6: once the set-up lock is closed, a register write completes and leaves every RWL field as it is, a read of HOST_FN_CFG returns the locked value, and whatever step
is taken, the lock and the fields keep their values but for a reset or loss of main power, which sets all of them back; the layout that RELEASE sampled stays too. -/
def Obligations.setup_lock_is_kept : Prop :=
  ∀ s : State, s.z.setup.locked = true →
    (∀ q off size8 v, ∃ r, exec (.registerWrite q off size8 v) s = .next r ∧ r.z.setup = s.z.setup) ∧
    (∀ (q : Requester) (f : Fin 64), Reaches s q →
      Gives s (exec (.halfReadLatch q (0x200 + 8 * f.val) true) s)
        (s.d.emit (.readReply q (s.z.partOfFn f + s.z.get (F.HOST_FN_CFG_CTX_FIRST f) * 2 ^ 8 + s.z.get (F.HOST_FN_CFG_CTX_COUNT f) * 2 ^ 32)))) ∧
    (∀ t, step s = .next t →
      (t.z.setup = { s.z.setup with layout := t.z.setup.layout } ∧ (s.z.setup.layout.isSome = true → t.z.setup.layout = s.z.setup.layout)) ∨ (t.z.setup = {} ∧ ∃ c rest, s.pending = c :: rest ∧ opensLock c = true))

/-- Every step keeps the canonical form of the memory: addresses rise strictly and no byte listed is zero. Where the spec leaves a choice the model's stands: log entry 3.
-/
def Obligations.memory_stays_canonical : Prop :=
  ∀ s t : State, MemoryOk s → step s = .next t → MemoryOk t

/-- R357: no step unburns a fuse: life-cycle bits, root slots, revocations, the security version, the identity and the repairs that are burned stay burned. -/
def Obligations.burned_fuses_stay_burned : Prop :=
  ∀ s t : State, step s = .next t → FusesKept s.z.fuse t.z.fuse

/-! ### Queues, descriptors and completion -/

/-- R306, R307: a doorbell of a context that is OFF or STOPPING is only counted; of one that is STARTING it is remembered; of one that is ON and resident it reads the
tail shadow, unless a shadow read is outstanding: then AGAIN is set and the doorbell is counted as coalesced. A read of a doorbell page returns zero and does nothing
else. -/
def Obligations.doorbell_by_context_state : Prop :=
  ∀ (s : State) (f : Fin 64) (page len c : Nat), s.d.barOpen (.fn f) = true → (len = 4 ∨ len = 8) → doorbellCtx s.z f.val page = some c →
    (s.d.ctxState c = codeOFF ∨ s.d.ctxState c = codeSTOPPING → ∃ t, exec (.doorbell f page 0 (.write len)) s = .next t ∧
      t.d.get F.HOST_CNT_DOORBELLS = (s.d.get F.HOST_CNT_DOORBELLS + 1) % 2 ^ 64 ∧ OnlyRegs s t [F.HOST_CNT_DOORBELLS, F.CTX_CNT_DOORBELL c]) ∧
    (s.d.ctxState c = codeSTARTING → ∃ t, exec (.doorbell f page 0 (.write len)) s = .next t ∧ (t.d.ctxRun c).startDoorbell = true ∧
      RegsFrom s (s.d.modCtx c fun r => { r with startDoorbell := true }) t [F.HOST_CNT_DOORBELLS, F.CTX_CNT_DOORBELL c]) ∧
    (s.d.ctxState c = codeON → s.d.bit (F.CTX_STATUS_RESIDENT c) = true → (s.d.ctxRun c).shadowOut = false →
      ∃ t, exec (.doorbell f page 0 (.write len)) s = .next t ∧ t.d.out = s.d.out ++ [.hostRead (s.z.fnOf c) (enShadow (s.d.entry c)) 8] ∧
        t.d.get F.HOST_CNT_SHADOW_READS = (s.d.get F.HOST_CNT_SHADOW_READS + 1) % 2 ^ 64 ∧ (t.d.ctxRun c).shadowOut = true ∧
        RegsFrom s { s.d with host := t.d.host, out := t.d.out } t [F.HOST_CNT_DOORBELLS, F.CTX_CNT_DOORBELL c, F.HOST_CNT_SHADOW_READS]) ∧
    (s.d.ctxState c = codeON → s.d.bit (F.CTX_STATUS_RESIDENT c) = true → (s.d.ctxRun c).shadowOut = true →
      ∃ t, exec (.doorbell f page 0 (.write len)) s = .next t ∧ (t.d.ctxRun c).again = true ∧
        t.d.get F.HOST_CNT_DB_COALESCED = (s.d.get F.HOST_CNT_DB_COALESCED + 1) % 2 ^ 64 ∧
        RegsFrom s { s.d with host := t.d.host } t [F.HOST_CNT_DOORBELLS, F.CTX_CNT_DOORBELL c, F.HOST_CNT_DB_COALESCED]) ∧
    (∀ off, Gives s (exec (.doorbell f page off (.read len)) s) (s.d.emit (.doorbellReply f.val (List.replicate len 0))))

/-- R305, R307, R308: A valid shadow that returns is shown in CTX_SHADOW_SEEN, and a fetch begins of the descriptors that are new, at most 8, as far as the completion
ring, the 64 in flight and the end of the ring allow. The descriptors of a fetch that returns stand in the queue of their context, which has fetched and holds that many
more; nothing is in memory yet. -/
def Obligations.shadow_return_and_fetch : Prop :=
  (∀ (s : State) (c : Fin 16384) (tail head : BitVec 32), (s.d.ctxRun c.val).shadowOut = true → (s.d.ctxRun c.val).again = false →
    (s.d.ctxRun c.val).shadowRetry = false → (s.d.ctxRun c.val).fetchOut = none → s.d.ctxState c.val = codeON → s.d.bit (F.CTX_STATUS_RESIDENT c) = true →
    let size := enSize (s.d.entry c.val)
    let n := s.d.get (F.CTX_PROGRESS_FETCHED c)
    let k := min (min 8 (sub32 tail.toNat n)) (min (min (size - sub32 n head.toNat) (64 - s.d.get (F.CTX_STATUS_INFLIGHT c))) (size - n % size))
    sub32 tail.toNat n ≤ size → sub32 (s.d.get (F.CTX_PROGRESS_CPL_COUNT c)) head.toNat ≤ size →
    ∃ t, exec (.shadowReadReturn c tail head) s = .next t ∧ t.d.get (F.CTX_SHADOW_SEEN_TAIL c) = tail.toNat ∧
      t.d.get (F.CTX_SHADOW_SEEN_CPL_HEAD c) = head.toNat ∧ (t.d.ctxRun c.val).shadowOut = false ∧
      t.d.out = s.d.out ++ (if k = 0 then [] else [.hostRead (s.z.fnOf c.val) (enRing (s.d.entry c.val) + 64 * (n % size)) (64 * k)]) ∧
      RegsFrom s { s.d with host := t.d.host, out := t.d.out } t [F.CTX_SHADOW_SEEN_TAIL c, F.CTX_SHADOW_SEEN_CPL_HEAD c, F.CTX_STATUS_CPL_STALL c]) ∧
  (∀ (s : State) (c : Fin 16384) (ds : List (BitVec 512)) (n e : Nat), (s.d.ctxRun c.val).fetchOut = some (n, ds.length, e) →
    (s.d.ctxRun c.val).fetchRetry = false →
    ∃ t, exec (.descriptorFetchReturn c ds) s = .next t ∧
      (t.d.ctxRun c.val).queue = (s.d.ctxRun c.val).queue ++
        (List.range ds.length).map (fun i => ⟨(n + i) % 2 ^ 32, nth 0 (ds.map (·.toNat)) i, e, !headerValid (nth 0 (ds.map (·.toNat)) i)⟩) ∧
      t.d.get (F.CTX_PROGRESS_FETCHED c) = (n + ds.length) % 2 ^ 32 ∧
      t.d.get F.HOST_CNT_DESC_FETCHED = (s.d.get F.HOST_CNT_DESC_FETCHED + ds.length) % 2 ^ 64 ∧
      RegsFrom s { s.d with host := t.d.host, out := t.d.out } t
        [F.CTX_PROGRESS_FETCHED c, F.CTX_STATUS_INFLIGHT c, F.HOST_CNT_DESC_FETCHED, F.CTX_STATUS_CPL_STALL c])

/-- R318: an EVENT writes VALUE as 8 bytes at a device address or in host memory (OP 0), adds it to the 8 bytes of a die-pool or deck-home bank (OP 1) or does neither (OP
2); it raises its vector unless NO_VECTOR is 1, and completes. -/
def Obligations.event_effects : Prop :=
  ∀ (s : State) (c : Fin 16384) (q : Fetched), Turn s c.val q → descOp q.desc = 0x0B → eventBodyOk (s.z.fnOf c.val) q.desc = true →
    let a := fld q.desc 16 0 64
    let v := fld q.desc 24 0 64
    let fl := s.d.host.nextId
    let raised := fun (d : Dev) => ended (if fld q.desc 34 15 1 = 1 then d else d.sendMsix (s.z.fnOf c.val) (fld q.desc 34 0 11)) fl stOK
    (fld q.desc 32 0 2 = 0 → isHost a = true →
      Gives s (exec (.eventWrite c) s) (raised ((taken s c.val q).emit (.hostWrite (s.z.fnOf c.val) (hostAddr a) (leBytes 8 v))))) ∧
    (fld q.desc 32 0 2 = 0 → isHost a = false → rangeStatus s.z (taken s c.val q) (some (enPart q.entry)) a 8 = none →
      Gives s (exec (.eventWrite c) s) (raised ((taken s c.val q).store (some fl) a (leBytes 8 v)))) ∧
    (fld q.desc 32 0 2 = 1 → isHost a = false →
      ((taken s c.val q).bankAtomic s.z true (if a < scratchBase then 66 else 0) (some (enPart q.entry)) false (some fl) a 8 v .clean).1.1 = stOK →
      Gives s (exec (.eventAdd c) s) (raised ((taken s c.val q).bankAtomic s.z true (if a < scratchBase then 66 else 0) (some (enPart q.entry)) false (some fl) a 8 v .clean).2)) ∧
    (fld q.desc 32 0 2 = 2 → Gives s (exec (.eventSignal c) s) (raised (taken s c.val q)))

/-- R313, R314, R321: an accepted FILL writes its pattern, byte a from byte (a − DST) mod 8, and an accepted COPY of device memory the bytes of its source where the two
do not overlap; RESULT is the number of bytes. A FILL that is refused at a byte has written those before it. A COPY from host memory asks the host for its source, and
writes what the host sends. Where the spec leaves a choice the model's stands: log entries 10, 123. -/
def Obligations.fill_and_copy : Prop :=
  ∀ (s : State) (c : Fin 16384),
    (∀ (q : Fetched), Turn s c.val q →
      let fl := s.d.host.nextId
      let p := some (enPart q.entry)
      let moved := fun (d : Dev) (n : Nat) => d.modFlight fl fun f => { f with result := n }
      let pattern := fun (n : Nat) => (List.range n).map fun i => BitVec.ofNat 8 (fld q.desc (32 + i % 8) 0 8)
      (descOp q.desc = 0x05 → fillBodyOk q.desc = true → isHost (fld q.desc 16 0 64) = false →
        rangeStatus s.z (taken s c.val q) p (fld q.desc 16 0 64) (fld q.desc 24 0 64) = none →
        Gives s (exec (.fill c) s)
          (ended (moved ((taken s c.val q).store (some fl) (fld q.desc 16 0 64) (pattern (fld q.desc 24 0 64))) (fld q.desc 24 0 64)) fl stOK)) ∧
      (∀ x st, descOp q.desc = 0x05 → fillBodyOk q.desc = true → isHost (fld q.desc 16 0 64) = false →
        rangeStatus s.z (taken s c.val q) p (fld q.desc 16 0 64) (fld q.desc 24 0 64) = some (x, st) →
        let n := x - fld q.desc 16 0 64
        Gives s (exec (.fill c) s) ((moved ((taken s c.val q).store (some fl) (fld q.desc 16 0 64) (pattern n)) n).refused fl x st)) ∧
      (descOp q.desc = 0x04 → copyBodyOk q.desc = true → isHost (fld q.desc 16 0 64) = false → isHost (fld q.desc 24 0 64) = false →
        copyRefused s.z (taken s c.val q) (enPart q.entry) (fld q.desc 16 0 64) (fld q.desc 24 0 64) (fld q.desc 32 0 64) = none →
        copyOverlaps (fld q.desc 16 0 64) (fld q.desc 24 0 64) (fld q.desc 32 0 64) = false → s.d.waitingCopy c.val = none → s.d.joined = false →
        let n := fld q.desc 32 0 64
        let bytes := (taken s c.val q).peeks (fld q.desc 16 0 64) n
        Gives s (exec (.copy c none) s) (ended ((((taken s c.val q).touch (fld q.desc 16 0 64) n).store (some fl) (fld q.desc 24 0 64) bytes).modFlight fl
          fun f => { f with host := 0, result := n }) fl stOK)) ∧
      (descOp q.desc = 0x04 → copyBodyOk q.desc = true → isHost (fld q.desc 16 0 64) = true → s.d.waitingCopy c.val = none → s.d.joined = false →
        ∃ t, exec (.copy c none) s = .next t ∧
          t.d.out = s.d.out ++ [.hostRead (s.z.fnOf c.val) (hostAddr (fld q.desc 16 0 64)) (fld q.desc 32 0 64)] ∧ t.d.mem = s.d.mem ∧ t.d.regs = s.d.regs)) ∧
    (∀ (w : Nat) (f : Flight) (b : List Byte), s.d.waitingCopy c.val = some w → s.d.flight w = some f → f.host = 1 → f.ready = false →
      isHost (fld f.desc 16 0 64) = true → isHost (fld f.desc 24 0 64) = false → b.length = fld f.desc 32 0 64 →
      rangeStatus s.z s.d (some f.partition) (fld f.desc 24 0 64) b.length = none →
      Gives s (exec (.copy c (some b)) s) (ended ((s.d.store (some w) (fld f.desc 24 0 64) b).modFlight w fun f => { f with host := 0, result := b.length }) w stOK))

/-- R315, R316: a CONVERT reads, converts and writes one line after another and, where no line is refused, completes with what it has counted; an accepted STATS writes
the entries of its lines and completes. Where the spec leaves a choice the model's stands: log entries 123, 124. -/
def Obligations.convert_and_stats : Prop :=
  ∀ (s : State) (c : Fin 16384) (q : Fetched), Turn s c.val q →
    let fl := s.d.host.nextId
    let d := taken s c.val q
    let p := some (enPart q.entry)
    (descOp q.desc = 0x06 → convertBodyOk q.desc = true →
      let r : ConvertRun := (List.range (cvLines q.desc)).foldl (fun r i => r.line s.z fl (flightOf s c.val q) i) { d := d }
      r.stop = none →
      Gives s (exec (.convert c) s)
        (ended (r.d.modFlight fl fun f => { f with counts := f.counts.add (r.counts.add { nulls := (distinctKeys r.zeros).length }) }) fl stOK)) ∧
    (descOp q.desc = 0x07 → statsBodyOk q.desc = true →
      let reads := (List.range (ssLines q.desc)).map fun i => (fld q.desc 16 0 64 + i * ssStride q.desc, ceilDiv (ssLE q.desc * fmtWidth (ssFmt q.desc)) 8)
      let d1 := reads.foldl (fun d r => d.touch r.1 r.2) d
      let lines := (List.range (ssLines q.desc)).map (d1.ssLine q.desc)
      let ws := ssEntries q.desc lines
      firstUnread s.z d p reads = none → firstRefused s.z d1 p (ws.map fun w => (w.addr, w.bytes)) = none →
      Gives s (exec (.stats c) s) ((ws.foldl (fun d w => d.tileWrite fl w) d1).modFlight fl fun f =>
        { f with counts := f.counts.add { nan := (lines.flatten.filter fun x => (b64 x).isNaN).length, flags := signallingFlag lines.flatten } }.finish stOK))

/-- R9, R289, R290, R310, R311, R314, R317: A FENCE is in flight with nothing done; a COURSE_WAIT and a CHECKPOINT with MODE 0 whose course has not come are armed for it;
a CHECKPOINT with MODE 1 for the committed course reports the module ready, and is invalid where the job is not suspended. DESCRIPTOR_DISPATCH dispatches the descriptor
whose turn it is, whatever its opcode: it does what the row of its opcode does. A FILL writes its pattern, a FENCE waits. A descriptor whose header fails validation ends
with INVALID_FIELD and nothing of it is executed. -/
def Obligations.waiting_descriptors : Prop :=
  (∀ (s : State) (c : Fin 16384) (q : Fetched), Turn s c.val q →
    let fl := s.d.host.nextId
    (descOp q.desc = 0x0A → fld q.desc 16 1 383 = 0 → Gives s (exec (.fence c) s) (taken s c.val q)) ∧
    (descOp q.desc = 0x09 → fld q.desc 24 0 320 = 0 → s.d.course < fld q.desc 16 0 64 →
      Gives s (exec (.courseWait c) s) ((taken s c.val q).setFlight fl { flightOf s c.val q with armed := some (fld q.desc 16 0 64) })) ∧
    (descOp q.desc = 0x0E → fld q.desc 24 0 8 = 0 → fld q.desc 25 0 312 = 0 → (s.d.joined && s.d.jobFailed) = false →
      s.d.checkpointCourse (fld q.desc 16 0 64) = true → s.d.course < fld q.desc 16 0 64 →
      Gives s (exec (.checkpointSaved c) s) ((taken s c.val q).setFlight fl { flightOf s c.val q with armed := some (fld q.desc 16 0 64) })) ∧
    (descOp q.desc = 0x0E → fld q.desc 24 0 8 = 1 → fld q.desc 25 0 312 = 0 → (s.d.joined && s.d.jobFailed) = false → s.d.suspended = true →
      fld q.desc 16 0 64 = s.d.get F.CRS_CKPT_COMMITTED →
      Gives s (exec (.checkpointRestored c) s) { taken s c.val q with crs := { s.d.crs with ready := some (fld q.desc 16 0 64) } }) ∧
    (descOp q.desc = 0x0E → fld q.desc 24 0 8 = 1 → fld q.desc 25 0 312 = 0 → (s.d.joined && s.d.jobFailed) = false → s.d.suspended = false →
      Gives s (exec (.checkpointRestored c) s) (ended (taken s c.val q) fl stInvalidField))) ∧
  (∀ (s : State) (c : Fin 16384) (q : Fetched), s.d.canDispatch s.z c.val = some q → s.d.nextTurn s.z = some c.val → s.d.waitingCopy c.val = none →
    s.d.joined = false →
    let fl := s.d.host.nextId
    let d := taken s c.val q
    (q.bad = true → descOp q.desc ≠ 0x08 → Gives s (exec (.descriptorDispatch c none) s) (ended d fl stInvalidField)) ∧
    (q.bad = true → descOp q.desc = 0x08 → Gives s (exec (.descriptorDispatch c none) s) (d.planUnread fl stInvalidField)) ∧
    (q.bad = false → Gives s (exec (.descriptorDispatch c none) s) (dispatchBody s.z d fl (flightOf s c.val q))) ∧
    (q.bad = false → descOp q.desc = 0x01 → exec (.descriptorDispatch c none) s = exec (.matrix c) s) ∧
    (q.bad = false → descOp q.desc = 0x02 → exec (.descriptorDispatch c none) s = exec (.weightWrite c) s) ∧
    (q.bad = false → descOp q.desc = 0x06 → exec (.descriptorDispatch c none) s = exec (.convert c) s) ∧
    (q.bad = false → descOp q.desc = 0x0A → fld q.desc 16 1 383 = 0 → Gives s (exec (.descriptorDispatch c none) s) d) ∧
    (q.bad = false → descOp q.desc = 0x05 → fillBodyOk q.desc = true → isHost (fld q.desc 16 0 64) = false →
      rangeStatus s.z d (some (enPart q.entry)) (fld q.desc 16 0 64) (fld q.desc 24 0 64) = none →
      let n := fld q.desc 24 0 64
      let bytes := (List.range n).map fun i => BitVec.ofNat 8 (fld q.desc (32 + i % 8) 0 8)
      Gives s (exec (.descriptorDispatch c none) s) (ended ((d.store (some fl) (fld q.desc 16 0 64) bytes).modFlight fl fun f => { f with result := n }) fl stOK)))

/-- R286, R287, R288: A PLAN_LOAD whose image passes every check stages the plan and completes with OK; one with CANCEL = 1 drops the staged plan. A JOB_JOIN that passes
its checks arms the join it describes; a JOB_LEAVE of a joined job arms a leave. Neither completes yet. Where the spec leaves a choice the model's stands: log entries
180, 181, 270. -/
def Obligations.plan_load_and_job : Prop :=
  (∀ (s : State) (c : Fin 16384) (q : Fetched), Turn s c.val q → descOp q.desc = 0x08 → (s.d.joined && s.d.jobFailed) = false →
    let fl := s.d.host.nextId
    let a := fld q.desc 16 0 64
    let n := fld q.desc 24 0 32
    let d := taken s c.val q
    (fld q.desc 28 0 1 = 0 → fld q.desc 28 1 1 = 1 → planLoadBodyOk q.desc = true → planShapeOk q.desc = true → readStatus s.z d (some (enPart q.entry)) a n = none →
      loadStatus s.z (d.touch a n) ((d.touch a n).planPart (flightOf s c.val q)) (d.peekNat a n) n true (fld q.desc 32 0 64) = 0 →
      ∃ t, exec (.planLoad c) s = .next t ∧ t.d.crs.staged = some (d.peekNat a n) ∧ t.d.get F.CRS_PLAN_STAGED_ID = plId (d.peekNat a n) % 2 ^ 32 ∧
        t.d.get F.CRS_PLAN_STATUS_STAGED_FIRST = 1 ∧ t.d.get F.CRS_PLAN_STATUS_LOAD_STATUS = 0 ∧
        ∃ f, (d.touch a n).flight fl = some f ∧ t.d.flight fl = some (Flight.finish { f with result := plId (d.peekNat a n) } stOK)) ∧
    (fld q.desc 28 0 1 = 1 → s.d.crs.staged.isSome = true →
      ∃ t, exec (.planCancel c) s = .next t ∧ t.d.crs.staged = none ∧ t.d.get F.CRS_PLAN_STAGED_ID = 0 ∧ t.d.get F.CRS_PLAN_STATUS_LOAD_STATUS = 9 ∧
        (∃ f, t.d.flight fl = some f ∧ f.ready = true ∧ f.status = stCancelled))) ∧
  (∀ (s : State) (c : Fin 16384) (q : Fetched), Turn s c.val q →
    let fl := s.d.host.nextId
    (∀ p, descOp q.desc = 0x0C → s.d.joined = false → s.d.crs.join = none → joinBodyOk s.z s.d c.val q.desc = true → s.d.timeState = timeLocked →
      (s.d.portUp 0 || s.d.portUp 1) = true → s.d.crs.staged = some p → s.d.bit F.CRS_PLAN_STATUS_STAGED_FIRST = true → plJob p = fld q.desc 16 0 16 →
      plModule p = fld q.desc 18 0 10 →
      s.d.time + 1000000 ≤ anchorTime (fld q.desc 24 0 64) (fld q.desc 32 0 64) (fld q.desc 40 0 9) (fld q.desc 48 0 64) →
      ∃ j : Join, Gives s (exec (.jobJoin c) s) { taken s c.val q with crs := { s.d.crs with join := some j } } ∧ j.flight = fl ∧ j.ctx = c.val ∧
        j.jobId = fld q.desc 16 0 16 ∧ j.module = fld q.desc 18 0 10 ∧ j.course = fld q.desc 48 0 64) ∧
    (descOp q.desc = 0x0D → fld q.desc 24 0 320 = 0 → s.d.joined = true → (fld q.desc 16 0 64 = 0 ∨ s.d.course < fld q.desc 16 0 64) →
      Gives s (exec (.jobLeave c) s) { taken s c.val q with crs := { s.d.crs with leaves := s.d.crs.leaves ++ [(some fl, fld q.desc 16 0 64)] } }))

/-- R132, R133, R164: a MATRIX with DEAL = 1 whose record passes every check and that names a course to come is armed for it with that record. R71: a BANK_SWAP with no
course enters its swap into the bank order of the macro it names. R68: a WEIGHT_WRITE of one macro whose checks pass gives the macro, where nothing holds it, a write of
the images of its rows. Where the spec leaves a choice the model's stands: log entries 251, 252. -/
def Obligations.matrix_swap_and_weight_write : Prop :=
  ∀ (s : State) (c : Fin 16384) (q : Fetched), Turn s c.val q →
    let fl := s.d.host.nextId
    let d := taken s c.val q
    (descOp q.desc = 0x01 → matrixBodyOk q.desc = true → fld q.desc 24 0 1 = 1 → fld q.desc 24 1 1 = 1 →
      let a := fld q.desc 16 0 64
      let o := (d.touch a 512).peekNat a 512
      readStatus s.z d (some (enPart q.entry)) a 512 = none → opRecordOk s.z o (enPart q.entry) true = true →
      ((firstUnread s.z (d.touch a 512) (some (enPart q.entry)) ((actSteps o).map fun k => ((opStep o k).arg64, 768))).isSome || (d.touch a 512).tablesOk o) = true →
      (opAllCores o).all (fun n => s.z.partOfCore n = enPart q.entry) = true → (d.touch a 512).course < fld q.desc 32 0 64 →
      (List.range (opDrawers o)).any (fun dr => (d.touch a 512).gangWhole o dr) = true →
      ∃ t f, exec (.matrix c) s = .next t ∧ t = { s with d := (d.touch a 512).setFlight fl f } ∧ f.opRec = o ∧ f.armed = some (fld q.desc 32 0 64) ∧
        f.released = false ∧ f.ready = false) ∧
    (descOp q.desc = 0x03 → swapBodyOk q.desc = true → fld q.desc 17 0 9 = 1 → fld q.desc 20 0 7 = 1 → fld q.desc 21 1 1 = 0 →
      s.z.partOfCore (fld q.desc 16 0 8) = enPart q.entry →
      ∃ t, exec (.bankSwap c) s = .next t ∧
        (t.d.macroRun (fld q.desc 16 0 8) (fld q.desc 19 0 6)).order =
          (s.d.macroRun (fld q.desc 16 0 8) (fld q.desc 19 0 6)).order ++ [.swap (some fl) (fld q.desc 21 0 1) (fld q.desc 22 0 16)] ∧
        t.d.mem = s.d.mem ∧ t.d.cells = s.d.cells ∧ t.d.out = s.d.out ∧ t.z = s.z ∧ t.pending = s.pending) ∧
    (descOp q.desc = 0x02 → writeBodyOk q.desc = true → fld q.desc 35 0 9 = 1 → fld q.desc 38 0 7 = 1 → fld q.desc 30 1 1 = 0 →
      let n := fld q.desc 34 0 8
      let m := fld q.desc 37 0 6
      let a := fld q.desc 16 0 64
      let w := slotWidth (fld q.desc 30 2 3)
      let fmt := fld q.desc 31 0 4
      let rb := srcRowBytes fmt w
      let rows := fld q.desc 32 0 10
      let d1 := d.touch a (rows * rb)
      s.z.partOfCore n = enPart q.entry → readStatus s.z d (some (enPart q.entry)) a (rows * rb) = none →
      (List.range rows).any (fun r => rowReserved fmt w (d1.peekNat (a + r * rb) rb)) = false → s.d.macroOn n m = true →
      s.d.bankOn n m (fld q.desc 30 0 1) = true → s.d.activeBank n m ≠ fld q.desc 30 0 1 → s.d.macroRun n m = {} →
      ∃ t j, exec (.weightWrite c) s = .next t ∧ (t.d.macroRun n m).write = some j ∧ j.src = .desc fl ∧ j.bank = fld q.desc 30 0 1 ∧
        j.wsid = fld q.desc 28 0 16 ∧
        j.images = (List.range rows).map (fun r => (rowImage fmt w (d1.peekNat (a + r * rb) rb)).1) ++ List.replicate (512 - rows) 0 ∧
        t.z = s.z ∧ t.pending = s.pending)

/-- R311, R319, R321, R328: A descriptor whose work has ended completes: it is in flight no more and its record of 32 bytes is written into the next slot of the
completion ring, which CPL_COUNT counts; with IRQ = 0 no message follows. A completion record that IDE rejects is lost: CPL_COUNT stays, and the context faults with cause
0x4, EN is cleared and it is STOPPING. -/
def Obligations.completion_records : Prop :=
  (∀ (s : State) (c : Fin 16384) (id ns : Nat) (acts : Activity) (f : Flight),
    let d := s.d.elapse ns
    let e := s.d.entry c.val
    let m := s.d.get (F.CTX_PROGRESS_CPL_COUNT c)
    s.d.flight id = some f → f.ctx = c.val → f.ready = true → f.item = none → f.report = true → f.isSave = false → descIrq f.desc = false → s.d.wall.slots = [] → s.d.wall.waiting = [] →
    (s.d.ctxRun c.val).silent = false → (s.d.ctxRun c.val).fetchOut.isSome = true → s.d.joined = false →
    ∃ t, exec (.descriptorComplete c id ns acts) s = .next t ∧ t.d.flight id = none ∧
      t.d.get (F.CTX_PROGRESS_CPL_COUNT c) = (m + 1) % 2 ^ 32 ∧
      t.d.get F.HOST_CNT_DESC_COMPLETED = (s.d.get F.HOST_CNT_DESC_COMPLETED + 1) % 2 ^ 64 ∧
      t.d.out = s.d.out ++ [.hostWrite (s.z.fnOf c.val) (enCpl e + 32 * (m % enSize e))
        (recordBytes f.n m (enSize e) f.status (f.stamp.getD s.d.course) ((f.energy + s.d.actEnergy acts * s.d.pwr.fNum / s.d.pwr.fDen) / microJoule)
          f.counts (f.resultOf s.d.course))] ∧
      t.d.mem = s.d.mem ∧ t.z = s.z ∧ t.pending = s.pending ∧ t.d.now = d.now) ∧
  (∀ (s : State) (c : Fin 16384) (id : Nat) (f : Flight), s.d.host.flights = [(id, f)] → f.ctx = c.val → f.ready = true → f.item = none → f.isSave = false →
    s.d.wall.slots = [] → s.d.wall.waiting = [] → (s.d.ctxRun c.val).queue = [] → enNoVector (s.d.entry c.val) = true → s.d.ctxState c.val = codeON → s.d.joined = false →
    ∃ t, exec (.completionWriteRejected c id) s = .next t ∧ t.d.get (F.CTX_PROGRESS_CPL_COUNT c) = s.d.get (F.CTX_PROGRESS_CPL_COUNT c) ∧
      t.d.get (F.CTX_STATUS_FAULT c) = 1 ∧ t.d.get (F.CTX_STATUS_FAULT_CAUSE c) = 4 ∧ t.d.get (F.CTX_STATE_EN c) = 0 ∧
      t.d.ctxState c.val = codeSTOPPING ∧ t.d.host.flights = [] ∧ t.d.out = s.d.out ∧ t.d.mem = s.d.mem ∧ t.z = s.z ∧ t.pending = s.pending)

/-- R322, R328: A host read of a context that ends with an error is issued once more. Messages of a context that moderation has held are sent as one at the end of the
interval, with a vector that one of them had; the interval has then passed. Where the spec leaves a choice the model's stands: log entries 118, 127. -/
def Obligations.host_reads_and_messages : Prop :=
  (∀ (s : State) (c : Fin 16384),
    ((s.d.ctxRun c.val).shadowOut = true → (s.d.ctxRun c.val).shadowRetry = false →
      Gives s (exec (.hostReadError c .shadow) s)
        ((s.d.modCtx c.val fun r => { r with shadowRetry := true }).emit (.hostRead (s.z.fnOf c.val) (enShadow (s.d.entry c.val)) 8))) ∧
    (∀ n k e, (s.d.ctxRun c.val).fetchOut = some (n, k, e) → (s.d.ctxRun c.val).fetchRetry = false →
      Gives s (exec (.hostReadError c .descriptors) s)
        ((s.d.modCtx c.val fun r => { r with fetchRetry := true }).emit (.hostRead (s.z.fnOf c.val) (enRing e + 64 * (n % enSize e)) (64 * k)))) ∧
    (∀ fl f, s.d.waitingCopy c.val = some fl → s.d.flight fl = some f → f.host = 1 →
      Gives s (exec (.hostReadError c .copySource) s)
        ((s.d.setFlight fl { f with host := 2 }).emit (.hostRead (s.z.fnOf c.val) (hostAddr (fld f.desc 16 0 64)) (fld f.desc 32 0 64))))) ∧
  (∀ (s : State) (c : Fin 16384) (t0 : Nat), (s.d.ctxRun c.val).heldMsg ≠ [] → (s.d.ctxRun c.val).lastMsg = some t0 →
    ∃ t v, exec (.msixModerationExpiry c) s = .next t ∧ v ∈ (s.d.ctxRun c.val).heldMsg ∧ t.d.out = s.d.out ++ [.msix (s.z.fnOf c.val) v] ∧
      (t.d.ctxRun c.val).heldMsg = [] ∧
      t.d.now = max s.d.now (t0 + 256 * enMod (s.d.entry c.val)) ∧ t.d.get F.HOST_CNT_MSIX = (s.d.get F.HOST_CNT_MSIX + 1) % 2 ^ 64 ∧
      t.d.mem = s.d.mem ∧ t.z = s.z ∧ t.pending = s.pending)

/-- R323, R324: a queue scheduler that is ON admits the one pending context of its half to a free place; with no place free it begins to put out an idle one, and an
eviction that ends frees its place. Where the spec leaves a choice the model's stands: log entries 113, 114. -/
def Obligations.residency : Prop :=
  ∀ (s : State) (q : Fin 2) (c : Fin 16384) (ns : Nat), c.val / 8192 = q.val →
    (s.d.schedOn q.val = true → s.d.pendingOf q.val = [c.val] → s.d.ctxState c.val = codeON → s.d.residents q.val < 1024 → s.d.get (F.CTX_STATUS_RESIDENT c) = 0 →
      enPriority (s.d.entry c.val) < 4 →
      ∃ t, exec (.qsAdmit q) s = .next t ∧ t.d.bit (F.CTX_STATUS_RESIDENT c) = true ∧ t.d.residents q.val = s.d.residents q.val + 1 ∧
        t.d.bit (F.CTX_STATUS_PENDING_DB c) = false ∧ t.d.get F.HOST_CNT_ADMISSIONS = (s.d.get F.HOST_CNT_ADMISSIONS + 1) % 2 ^ 64 ∧
        t.d.mem = s.d.mem ∧ t.z = s.z ∧ t.pending = s.pending) ∧
    (s.d.schedOn q.val = true → s.d.pendingOf q.val ≠ [] → 1024 ≤ s.d.residents q.val → (s.d.evictable q.val).contains c.val = true →
      (s.d.ctxRun c.val).lastUse + 1000 * s.d.get F.HOST_QS_CFG_IDLE_US ≤ s.d.now + ns →
      Gives s (exec (.qsEvict q c ns) s) ((s.d.elapse ns).modCtx c.val fun r => { r with evicting := true })) ∧
    (s.d.schedOn q.val = true → (s.d.ctxRun c.val).evicting = true → s.d.get (F.CTX_STATUS_RESIDENT c) = 1 →
      ∃ t, exec (.evictionComplete c) s = .next t ∧ t.d.bit (F.CTX_STATUS_RESIDENT c) = false ∧
        t.d.residents q.val = (s.d.residents q.val - 1) % 2 ^ 11 ∧ t.d.get F.HOST_CNT_EVICTIONS = (s.d.get F.HOST_CNT_EVICTIONS + 1) % 2 ^ 64 ∧
        (t.d.ctxRun c.val).evicting = false ∧
        RegsFrom s { s.d with host := t.d.host } t [F.CTX_STATUS_RESIDENT c, F.HOST_QS_STATUS_RESIDENT q, F.HOST_CNT_EVICTIONS])

/-- R300, R190: a BAR4 access reaches device memory at BASE, aligned to the window, plus the offset, in the partition of its function. An accepted write stores its bytes
there and an accepted read answers them. One that reaches another partition's memory, a vault or a hole counts in HOST_CNT_BAR4_DENIED and changes no memory, and a read
of that kind answers zero; one that fails otherwise is not counted there: a scratchpad whose core is not ON answers zero, and a wall that has failed, or a unit that reads
cannot correct, free bytes (log entry 120). Where the spec leaves a choice the model's stands: log entry 120. -/
def Obligations.bar4_access : Prop :=
  ∀ (s : State) (f : Fin 64) (off len : Nat) (b : List Byte), s.d.barOpen (.fn f) = true →
    let a := s.d.get (F.HOST_FN_BAR4_BASE f) / s.d.bar4Size f.val * s.d.bar4Size f.val + off
    let p := some (s.z.partOfFn f.val)
    (off + b.length ≤ s.d.bar4Size f.val → rangeStatus s.z s.d p a b.length = none →
      Gives s (exec (.bar4Access f off len (some b)) s) (s.d.store none a b)) ∧
    (off + len ≤ s.d.bar4Size f.val → readStatus s.z s.d p a len = none →
      Gives s (exec (.bar4Access f off len none) s) ((s.d.touch a len).emit (.bar4Reply f.val (s.d.peeks a len)))) ∧
    (∀ x st, off + len ≤ s.d.bar4Size f.val → readStatus s.z s.d p a len = some (x, st) → st ≠ stMemUnavailable → st ≠ stMemUncorrectable →
      ∃ t, exec (.bar4Access f off len none) s = .next t ∧ t.d.out = (s.d.denied x st).out ++ [.bar4Reply f.val (List.replicate len 0)] ∧
        t.d.mem = s.d.mem ∧ t.z = s.z ∧ t.pending = s.pending ∧
        t.d.get F.HOST_CNT_BAR4_DENIED = (s.d.get F.HOST_CNT_BAR4_DENIED +
          (if ownerOf s.z s.d x ≠ p ∨ st = stVaultDenied ∨ st = stAddressFault then 1 else 0)) % 2 ^ 64) ∧
    (∀ x st, off + len ≤ s.d.bar4Size f.val → readStatus s.z s.d p a len = some (x, st) → st = stMemUnavailable ∨ st = stMemUncorrectable →
      ∃ t l bytes, exec (.bar4Access f off len none) s = .next t ∧ t.d.out = s.d.out ++ l ++ [.bar4Reply f.val bytes] ∧ bytes.length = len ∧ t.d.mem = s.d.mem ∧
        t.z = s.z ∧ t.pending = s.pending) ∧
    (∀ x st, off + b.length ≤ s.d.bar4Size f.val → rangeStatus s.z s.d p a b.length = some (x, st) →
      ∃ t, exec (.bar4Access f off len (some b)) s = .next t ∧ t.d.mem = s.d.mem ∧ t.z = s.z ∧ t.pending = s.pending ∧
        t.d.get F.HOST_CNT_BAR4_DENIED = (s.d.get F.HOST_CNT_BAR4_DENIED +
          (if ownerOf s.z s.d x ≠ p ∨ st = stVaultDenied ∨ st = stAddressFault then 1 else 0)) % 2 ^ 64)

/-- R332, R333: a Function Level Reset outside FETCHING, of a function whose one context is OFF, resets its counts; D3hot with no context in use stops decoding, and D0
restores it; a BAR4 read of a function whose window is not decoded, in D3hot or in stage RECOVERY, is answered as an Unsupported Request. Where the spec leaves a choice
the model's stands: log entry 121. -/
def Obligations.function_reset_and_power_states : Prop :=
  ∀ (s : State) (f : Fin 64) (off len : Nat),
    (∀ c r, s.d.host.ctx = [(c, r)] → s.z.owner c = some f.val → s.d.ctxState c = codeOFF → s.d.bit (F.CTX_STATUS_PENDING_DB c) = false → s.d.stage ≠ stageFETCHING →
      ∃ t, exec (.functionLevelReset f) s = .next t ∧ t.d.get (F.CTX_PROGRESS_FETCHED c) = 0 ∧ t.d.get (F.CTX_PROGRESS_CPL_COUNT c) = 0 ∧
        (t.d.ctxRun c).heldMsg = [] ∧
        RegsFrom s { s.d with host := t.d.host } t [F.CTX_PROGRESS_FETCHED c, F.CTX_PROGRESS_CPL_COUNT c, F.PWR_CTX_ENERGY c]) ∧
    (s.d.host.ctx = [] → s.d.host.d3.contains f.val = false →
      Gives s (exec (.d3hotEntry f) s) { s.d with host := { s.d.host with d3 := s.d.host.d3 ++ [f.val] } }) ∧
    (∃ t, exec (.d0Return f) s = .next t ∧ t.d.host.d3.contains f.val = false ∧ t = { s with d := { s.d with host := { s.d.host with d3 := t.d.host.d3 } } }) ∧
    (s.d.barOpen (.fn f) = false → off + len ≤ s.d.bar4Size f.val →
      Gives s (exec (.bar4Access f off len none) s) (s.d.emit (.unsupported f.val)))

/-! ### Macros, tiles and accumulation -/

/-- R44, R45, R46, R49: whatever planes it skips, a vector's subtotal of a slot and a segment is the dot product of the slot's signed magnitudes and the activations over
the rows of the segment. -/
def Obligations.vector_subtotal_is_the_dot_product : Prop :=
  ∀ (rows : VecRows) (lo len w s b : Nat) (signed : Bool), 1 ≤ b → (∀ p ∈ rows, p.2 < 2 ^ b) →
    accAfter rows lo len w s b signed b =
      isum (((rows.drop lo).take len).map fun p => slotValue p.1 w s * (if signed then toSigned b p.2 else ((p.2 : Nat) : Int)))

/-- R43, R47, R48, R49, R107, R113: a vector whose turn it is, in a macro that is ON with the weights of the operation, adds its subtotals into the chunks of its rows and
is counted plane by plane. A full chunk queue makes the core wait; a macro that is not ON ends the operation with MACRO_OFF, weights that do not match end it with
WEIGHT_SET_MISMATCH. Where the spec leaves a choice the model's stands: log entries 134, 255. -/
def Obligations.macro_vector_adds_its_subtotals : Prop :=
  ∀ (s : State) (n : Fin 256) (m : Fin 64) (v : Fin 32) (fl o kt nb : Nat) (t1 t0 : TilePos), VectorTurn s n m v fl o kt nb t1 t0 →
    let r := s.d.coreRun n
    let k := vecCounts (vectorRows s n m v o kt) (opPlanes o) (vectorWide s n m o)
    let after := (vectorChunks o r t1 t0 kt nb v (vectorRows s n m v o kt)).1
    let room := r.queue.length < 16384 ∧ after.queue.length ≤ 16384
    let on := s.d.macroOn n m = true ∧ s.d.bankOn n m (s.d.activeBank n m) = true
    let fits := opKind o = 1 ∨ (s.d.macroRun n m).checked = some fl ∨ s.d.weightMismatch o n m = false
    let more := ((walkedK o t0).all fun kt => (List.range (opNCols o)).all fun nb => ((m.val, v.val) :: r.driven).contains (opMacro o kt nb, 31)) = false
    let freed := s.d.put (F.CORE_ACC_STATUS_CHAIN_WAIT n) 0
    (room → on → fits →
      ∃ t, exec (.macroVector n m v) s = .next t ∧
        t.d.get (F.CIM_CNT_PLANES n m) = (s.d.get (F.CIM_CNT_PLANES n m) + k.planes) % 2 ^ 64 ∧
        t.d.get (F.CIM_CNT_SKIPPED n m) = (s.d.get (F.CIM_CNT_SKIPPED n m) + k.skipped) % 2 ^ 64 ∧
        t.d.get (F.CIM_CNT_SPLITS n m) = (s.d.get (F.CIM_CNT_SPLITS n m) + k.splits) % 2 ^ 64 ∧
        t.d.get (F.CIM_CNT_FULLSCALE n m) = (s.d.get (F.CIM_CNT_FULLSCALE n m) + k.fullscale) % 2 ^ 64 ∧ t.z = s.z ∧ t.pending = s.pending ∧
        (more → (t.d.coreRun n).driven = (m.val, v.val) :: r.driven ∧ (t.d.coreRun n).queue = after.queue ∧
          (t.d.coreRun n).openChunks = after.openChunks ∧ Keeps s t)) ∧
    (16384 ≤ r.queue.length → Gives s (exec (.macroVector n m v) s) ((s.d.put (F.CORE_ACC_STATUS_CHAIN_WAIT n) 1).bump (F.CORE_CNT_CHAIN_WAIT n) 1)) ∧
    (room → ¬ on → Gives s (exec (.macroVector n m v) s) (freed.endOp fl stMacroOff)) ∧
    (room → on → ¬ fits → Gives s (exec (.macroVector n m v) s) (freed.endOp fl stWeightSetMismatch))

/-- R54, R55, R56, R58: A row attempt of a write writes its row with parity; after a pass, or the last attempt that MAX_ATTEMPTS allows, the write goes on to the next
row, and otherwise to the next attempt of the same row. After the last row the bank is VALID with the write's WSID if no row failed. R65: a write whose macro or bank has
left ON is abandoned at the end of the row, with the bank not VALID. A single-pass write that ends has written its 512 rows with parity; a row that failed its first check
was written again and counts in CIM_CNT_RETRY, and with no row that failed twice the bank is VALID. R65: one whose macro or bank has left ON leaves the bank not VALID.
Where the spec leaves a choice the model's stands: log entries 20, 130. -/
def Obligations.weight_rows : Prop :=
  (∀ (s : State) (n : Fin 256) (m : Fin 68) (pass : Bool) (j : WriteJob), (s.d.macroRun n m).write = some j → j.single = false → writesSettle s n = true → j.row < 512 →
    let last := pass = true ∨ s.d.get F.CIM_PV_MARGIN_MAX_ATTEMPTS ≤ j.attempt
    let bad := pass = false ∧ s.d.get F.CIM_PV_MARGIN_MAX_ATTEMPTS ≤ j.attempt
    let fails := if bad then j.fails + 1 else j.fails
    let row := fun (t : State) => t.d.cells = (s.d.setRow n m j.bank j.row (withParity (nth 0 j.images j.row))).cells ∧ t.d.mem = s.d.mem ∧ t.z = s.z ∧
      t.pending = s.pending
    (s.d.writeStops n m j = false → ¬ last → ∃ t, exec (.pvRowAttemptEnd n m pass) s = .next t ∧ row t ∧
      (t.d.macroRun n m).write = some { j with attempt := j.attempt + 1, maxAttempt := max j.maxAttempt j.attempt }) ∧
    (s.d.writeStops n m j = false → last → j.row < 511 → ∃ t, exec (.pvRowAttemptEnd n m pass) s = .next t ∧ row t ∧
      (t.d.macroRun n m).write = some { j with row := j.row + 1, attempt := 1, maxAttempt := max j.maxAttempt j.attempt, fails := fails,
                                               firstFail := if bad ∧ j.fails = 0 then j.row else j.firstFail }) ∧
    (s.d.writeStops n m j = false → last → j.row = 511 → (s.d.macroRun n m).waiting = [] → (fails = 0 ∨ s.d.coreOp n = none) →
      ∃ t, exec (.pvRowAttemptEnd n m pass) s = .next t ∧ row t ∧ (t.d.macroRun n m).write = none ∧ t.d.get (cimVALID n m j.bank) = (if fails = 0 then 1 else 0) ∧
        t.d.get (cimWSID n m j.bank) = (if fails = 0 then j.wsid % 2 ^ 16 else 0) ∧ t.d.get (F.CIM_BANK_WRITING n m) = 0) ∧
    (s.d.writeStops n m j = true → s.d.coreOp n = none → (s.d.macroRun n m).waiting = [] →
      ∃ t, exec (.pvRowAttemptEnd n m pass) s = .next t ∧ row t ∧ (t.d.macroRun n m).write = none ∧ t.d.get (cimVALID n m j.bank) = 0 ∧
        t.d.get (cimWSID n m j.bank) = 0 ∧ t.d.get (F.CIM_BANK_WRITING n m) = 0)) ∧
  (∀ (s : State) (n : Fin 256) (m : Fin 68) (firstFails rewriteFails : List (Fin 512)) (j : WriteJob), (s.d.macroRun n m).write = some j → j.single = true →
    writesSettle s n = true → (s.d.macroRun n m).waiting = [] →
    let bad := (firstFails.map (·.val)).filter fun r => (rewriteFails.map (·.val)).contains r
    (s.d.writeStops n m j = false → (bad = [] ∨ s.d.coreOp n = none) → ∃ t, exec (.singlePassWriteDone n m firstFails rewriteFails) s = .next t ∧
      t.d.cells = ((List.range 512).foldl (fun d r => d.setRow n m j.bank r (withParity (nth 0 j.images r))) s.d).cells ∧
      t.d.get (cimVALID n m j.bank) = (if bad = [] then 1 else 0) ∧ t.d.get (cimWSID n m j.bank) = (if bad = [] then j.wsid % 2 ^ 16 else 0) ∧
      (t.d.macroRun n m).write = none ∧
      t.d.get (F.CIM_CNT_RETRY n m) = (s.d.get (F.CIM_CNT_RETRY n m) + firstFails.length) % 2 ^ 64 ∧
      t.d.get (F.CIM_WRITE_RESULT_FAILED_ROWS n m) = bad.length % 2 ^ 10 ∧ t.d.mem = s.d.mem ∧ t.z = s.z ∧ t.pending = s.pending) ∧
    (s.d.writeStops n m j = true → s.d.coreOp n = none → ∃ t, exec (.singlePassWriteDone n m firstFails rewriteFails) s = .next t ∧
      t.d.get (cimVALID n m j.bank) = 0 ∧ t.d.get (cimWSID n m j.bank) = 0 ∧ (t.d.macroRun n m).write = none ∧ t.d.mem = s.d.mem ∧ t.z = s.z ∧
      t.pending = s.pending))

/-- R60, R61, R160: A swap at the head of bank order, with no write on its bank, makes its bank the active one where the bank is ON, VALID and holds the weights that the
swap expects; otherwise the active bank stays and the descriptor takes BANK_INVALID. With a write on the bank it waits. R160: a swap of the sequencer's makes its load
active with the last of its macros. The sequencer starts the next load of a core's walk: every macro of the load is given a single-pass write of the images of its rows
into its inactive bank. Where the spec leaves a choice the model's stands: log entries 21, 132, 250. -/
def Obligations.bank_swap_and_streaming : Prop :=
  (∀ (s : State) (n : Fin 256) (m : Fin 68) (src : Option Nat) (dest expect : Nat) (rest : List OrderItem),
    (s.d.macroRun n m).order = .swap src dest expect :: rest → dest < 2 →
    (s.d.writeOn n m dest = true → loadsIdle s n = true → Gives s (exec (.bankSwapApply n m) s) s.d) ∧
    (∀ fl f, src = some fl → s.d.flight fl = some f → f.status = stOK → (s.d.coreOp n).map (·.1) ≠ some fl → loadsIdle s n = true → s.d.writeOn n m dest = false →
      ∃ t g, exec (.bankSwapApply n m) s = .next t ∧
      t.d.get (F.CIM_BANK_ACTIVE n m) = (if s.d.swapCheck n m dest expect then dest else s.d.activeBank n m) ∧ (t.d.macroRun n m).order = rest ∧ t.d.flight fl = some g ∧
      g.status = (if s.d.swapCheck n m dest expect then stOK else stBankInvalid) ∧ g.left = f.left.filter (· ≠ n.val * 68 + m.val) ∧ Keeps s t) ∧
    (∀ fl o f k, src = none → s.d.coreOp n = some (fl, o) → s.d.flight fl = some f → f.status = stOK → (s.d.coreRun n).loadWriting = none →
      (s.d.coreRun n).loadSwap = some k → (s.d.coreRun n).loadLeft = [m.val] → s.d.swapCheck n m dest expect = true → s.d.writeOn n m dest = false →
      ∃ t, exec (.bankSwapApply n m) s = .next t ∧ t.d.get (F.CIM_BANK_ACTIVE n m) = dest ∧ (t.d.macroRun n m).order = rest ∧
        (t.d.coreRun n).loadActive = some k ∧ (t.d.coreRun n).loadSwap = none ∧ Keeps s t)) ∧
  (∀ (s : State) (n : Fin 256) (fl o : Nat) (p : TilePos), s.d.coreOp n = some (fl, o) →
    let r := s.d.coreRun n
    let exps := if opCompute o = 2 ∨ opCompute o = 3 then
        (((List.range (opTN o 0)).map (p.n + ·)).filter (colValid o)).map fun nf =>
          ((opBScale o).addr + nf * (opBScale o).stride + p.k / 32, ceilDiv (min (opK o) (p.k + opTK o 0) - p.k) 32)
      else []
    opKind o = 1 → r.loadWriting = none → r.loadReady = none → r.loadSwap = none → s.d.coreOn n = true → s.d.bit (F.CORE_STATE_HELD n) = false →
    (walkAhead o n r).find? (fun t => some (loadKey o t) ≠ r.loadActive) = some p →
    (loadMacros o p).all (fun q => s.d.macroOn n q.1 && s.d.bankOn n q.1 (1 - s.d.activeBank n q.1)) = true →
    firstUnread s.z s.d (some (s.d.partOf fl)) (bRanges o p ++ exps) = none →
    ∃ t, exec (.streamingLoadWrite n) s = .next t ∧ (t.d.coreRun n).loadWriting = some (loadKey o p) ∧
      (t.d.coreRun n).loadLeft = (loadMacros o p).map (fun q => q.1) ∧ t.d.cells = s.d.cells ∧ t.z = s.z ∧ t.pending = s.pending)

/-- R22, R111, R112, R114, R117, R120: Promotion of the oldest chunk of an output element adds its value times its factor to the element's wide total by one fused
binary64 step; a row that is not in the total store yet is placed there as +0 by the head core, once the store has room for it (R114, R158); the core waits while an entry
of its scales has not arrived. A row of totals that arrives for the block in progress is held and its row is present, a failed transfer check on the way or not; a path
between neighbouring cores that crosses a part which failed twice in a row goes the other way round the ring; a core resumes a block from a spill record that matches and
ends the operation with SPILL_MISMATCH otherwise; a scale entry that the streamer may read is held. Where the spec leaves a choice the model's stands: log entry 253. -/
def Obligations.chunks_chain_and_scales : Prop :=
  (∀ (s : State) (n : Fin 256) (row col fl o : Nat) (t1 : TilePos) (ch : Chunk),
    let r := s.d.coreRun n
    s.d.coreOp n = some (fl, o) → coreT1 o n r = some t1 → r.queue.find? (fun c => c.row = row && c.col = col) = some ch → s.d.coreWorks n = true →
    let r0 := if r.present.contains row then r else r.placeRow o row
    let na := scaleNeed o 0 (t1.m + row) (t1.n + col) ch.k0
    let nb := scaleNeed o 1 (t1.m + row) (t1.n + col) ch.k0
    let ready := (na.isSome = true → (na.bind (r.scaleOf 0)).isSome = true) ∧ (nb.isSome = true → (nb.bind (r.scaleOf 1)).isSome = true)
    (r.rowReady o n row = false → Gives s (exec (.chunkPromote n row col) s) s.d) ∧
    (∀ x flags, r.rowReady o n row = true → ready → chunkFactor o ch.aexp ch.bexp (na.bind (r.scaleOf 0)) (nb.bind (r.scaleOf 1)) = .code x flags →
      ∃ t, exec (.chunkPromote n row col) s = .next t ∧ (t.d.coreRun n).queue = r.queue.erase ch ∧
        (isTail o n r = true →
          (t.d.coreRun n).totals = tset r0.totals (totalKey o row col) (promoteTotal ch.value x (tget 0 r0.totals (totalKey o row col))).1) ∧
        t.d.get (F.CORE_CNT_CHUNKS n) = (s.d.get (F.CORE_CNT_CHUNKS n) + 1) % 2 ^ 64 ∧ Keeps s t) ∧
    (r.rowReady o n row = true → ready → chunkFactor o ch.aexp ch.bexp (na.bind (r.scaleOf 0)) (nb.bind (r.scaleOf 1)) = .null →
      ∃ t, exec (.chunkPromote n row col) s = .next t ∧ (t.d.coreRun n).queue = r.queue.erase ch ∧
        (isTail o n r = true → (t.d.coreRun n).totals = r0.totals) ∧ Keeps s t) ∧
    (r.rowReady o n row = true → ¬ ready → Gives s (exec (.chunkPromote n row col) s) ((s.d.put (F.CORE_ACC_STATUS_SCALE_WAIT n) 1).bump (F.CORE_CNT_SCALE_WAIT n) 1))) ∧
  (∀ (s : State) (n : Fin 256) (fl o : Nat), s.d.coreOp n = some (fl, o) →
    let r := s.d.coreRun n
    (∀ l rest faultAt, r.link = l :: rest → l.block = r.l1 → r.walked = false → s.d.coreWorks n = true → r.totalsUsed + l.totals.length ≤ 8192 →
      ∃ t, exec (.totalsArrive n faultAt) s = .next t ∧ (t.d.coreRun n).link = rest ∧ (t.d.coreRun n).present = l.row :: r.present ∧
        (t.d.coreRun n).sat = (r.sat || l.sat) ∧
        (isTail o n r = true →
          (t.d.coreRun n).totals = (List.range l.totals.length).foldl (fun t c => tset t (totalKey o l.row c) (nth 0 l.totals c)) r.totals) ∧
        (faultAt = none → Keeps s t)) ∧
    (∀ (x : LinkPart) (i : Fin 63),
      let a := n.val / 64 * 64 + i.val
      let short := linkPath (s.d.get (F.CORE_ID_PHYSICAL a)) (s.d.get (F.CORE_ID_PHYSICAL (a + 1)))
      s.d.get (F.CORE_LINK_NEXT_STOPS a) = short.1 → s.d.get (F.CORE_LINK_NEXT_DIR a) = short.2 → 0 < short.1 →
      linkPartCrossed x (s.d.get (F.CORE_ID_PHYSICAL a)) short.1 short.2 = true →
      ∃ t, exec (.totalsArrive n (some (x, true))) s = .next t ∧ t.d.get (F.CORE_LINK_NEXT_STOPS a) = 64 - short.1 ∧
        t.d.get (F.CORE_LINK_NEXT_DIR a) = 1 - short.2 ∧ t.d.get (F.CORE_LINK_REROUTED a) = 1 ∧ t.d.mem = s.d.mem ∧ t.d.cells = s.d.cells ∧ t.z = s.z ∧
        t.pending = s.pending) ∧
    (∀ t1, coreT1 o n r = some t1 → r.needResume = true → s.d.coreWorks n = true → r.totalsUsed + opTM o 1 * opTN o 1 ≤ 8192 →
      let a := spillAddr o n (tileOrigin o r.tile).1 (tileOrigin o r.tile).2 t1
      let h := s.d.peekNat a 32
      let matched := fld h 0 0 32 = r.tile % 2 ^ 32 ∧ fld h 16 0 32 = r.gen % 2 ^ 32 ∧ fld h 4 0 32 = t1.k ∧ fld h 8 0 16 = opTM o 1 ∧ fld h 10 0 16 = opTN o 1
      rangeStatus s.z s.d (some (s.d.partOf fl)) a (spillBytes o) = none →
      (matched → ∃ t, exec (.spillResume n) s = .next t ∧ (t.d.coreRun n).needResume = false ∧
        (t.d.coreRun n).totals = (List.range (opTM o 1 * opTN o 1)).map (fun i => (i, s.d.peekNat (a + 32 + 8 * i) 8)) ∧
        (t.d.coreRun n).present = List.range (opTM o 1) ∧ t.d.get (F.CORE_CNT_RESUMES n) = (s.d.get (F.CORE_CNT_RESUMES n) + 1) % 2 ^ 64 ∧ Keeps s t) ∧
      (¬ matched → Gives s (exec (.spillResume n) s) (s.d.endOp fl stSpillMismatch))) ∧
    (∀ (operand : Fin 2) (line group : Nat),
      let ref := if operand.val = 0 then opAScale o else opBScale o
      let e := scaleAddr ref line group
      ref.mode ≠ 0 → r.scaleOf operand.val (line, group) = none → readStatus s.z s.d (some (s.d.partOf fl)) e.1 e.2 = none →
      Gives s (exec (.scaleArrive n operand line group) s)
        ((s.d.touch e.1 e.2).modCore n fun q => { q with scales := q.scales ++ [⟨operand.val, line, group, s.d.peekNat e.1 e.2⟩] })))

/-- R114, R116, R125, R145, R154, R161: The end of a pass. A core with nothing left to sum or promote that has driven the last level-1 tile of its block hands the block
to the drain, if it is the tail of its chain, and has walked its tile when no level-1 tile is left; a streaming block whose pass is not the last and that another block
follows is spilled and counted, and a core of a chain spills nothing. The oldest block of a core goes through the drain chain, whose writes, counts and statistics its
tile gathers, or whose row images are written into banks (DEST = 1); where its requantise step saturates REPLAY_THRESHOLD elements or more, the block stays for a replay,
which reads memory as the first drain wrote it, drains the block with its second scale and counts one replay. Where the spec leaves a choice the model's stands: log
entries 143, 254. -/
def Obligations.passes_and_drain : Prop :=
  (∀ (s : State) (n : Fin 256) (fl o : Nat) (t1 : TilePos), s.d.coreOp n = some (fl, o) →
    let r := s.d.coreRun n
    let rows := if colValid o t1.n then (List.range (opTM o 1)).filter fun i => rowValid o (t1.m + i) else []
    coreT1 o n r = some t1 → s.d.coreWorks n = true → (level0 o t1).length ≤ r.l0 → r.queue = [] → r.openChunks = [] → rows.all r.present.contains = true →
    (isTail o n r = true ∨ rows.all r.forwarded.contains = true) →
    (opKind o = 0 ∨ opK o ≤ passEnd o t1 → (coreLevel1 o n r)[r.l1 + 1]? = none →
      ∃ t, exec (.blockPassEnd n) s = .next t ∧
        (t.d.coreRun n).drains = (if opK o ≤ passEnd o t1 ∧ isTail o n r = true then r.drains ++ [⟨t1.m, t1.n, r.totals, r.sat, false⟩] else r.drains) ∧
        (t.d.coreRun n).walked = true ∧ (t.d.coreRun n).l1 = r.l1 + 1 ∧ t.d.get (F.SEQ_CNT_BLOCKS n) = (s.d.get (F.SEQ_CNT_BLOCKS n) + 1) % 2 ^ 64 ∧
        t.d.get (F.SEQ_CNT_TILES n) = (s.d.get (F.SEQ_CNT_TILES n) + 1) % 2 ^ 64 ∧ t.d.get (F.CORE_CNT_SPILLS n) = s.d.get (F.CORE_CNT_SPILLS n) ∧ Keeps s t) ∧
    (∀ t2, (coreLevel1 o n r)[r.l1 + 1]? = some t2 → (opKind o = 0 ∨ opK o ≤ passEnd o t1 ∨ sameBlock t2 t1 = true) →
      ∃ t, exec (.blockPassEnd n) s = .next t ∧ t.d.get (F.SEQ_CNT_BLOCKS n) = (s.d.get (F.SEQ_CNT_BLOCKS n) + 1) % 2 ^ 64 ∧
        t.d.get (F.CORE_CNT_SPILLS n) = s.d.get (F.CORE_CNT_SPILLS n) ∧ t.d.cells = s.d.cells ∧ t.z = s.z ∧ t.pending = s.pending) ∧
    (∀ t2, opKind o = 1 → passEnd o t1 < opK o → (coreLevel1 o n r)[r.l1 + 1]? = some t2 → sameBlock t2 t1 = false →
      rangeStatus s.z s.d (some (s.d.partOf fl)) (spillAddr o n (tileOrigin o r.tile).1 (tileOrigin o r.tile).2 t1) (spillBytes o) = none →
      ∃ t, exec (.blockPassEnd n) s = .next t ∧ t.d.get (F.CORE_CNT_SPILLS n) = (s.d.get (F.CORE_CNT_SPILLS n) + 1) % 2 ^ 64 ∧
        t.d.get (F.SEQ_CNT_BLOCKS n) = (s.d.get (F.SEQ_CNT_BLOCKS n) + 1) % 2 ^ 64 ∧ t.d.cells = s.d.cells ∧ t.z = s.z ∧ t.pending = s.pending)) ∧
  (∀ (s : State) (n : Fin 256) (fl : Nat) (f : Flight) (b : DrainBlock) (rest : List DrainBlock), (s.d.coreRun n).flight = some fl → s.d.flight fl = some f →
    (s.d.coreRun n).drains = b :: rest → s.d.coreWorks n = true → s.d.get F.HLT_CHECK_STATUS_MODE_EFF % 2 = 0 →
    let dr := (s.d.coreRun n).drawer
    let w := s.d.drawer fl dr
    let toMemory := (opOutput f.opRec).any (·.dest) = false
    let out := fun (replay : Bool) => drainChain s.z (if replay then s.d.afterWrites fl w.writes else s.d) f b replay
    (toMemory → b.replayDue = false → (out false).status = stOK → (opThreshold f.opRec = 0 ∨ (out false).reqSat < opThreshold f.opRec) →
      ∃ t, exec (.blockDrain n) s = .next t ∧ (t.d.coreRun n).drains = rest ∧ (t.d.drawer fl dr).writes = w.writes ++ (out false).writes ∧
        (t.d.drawer fl dr).counts = (w.counts.add (out false).counts).add {} ∧
        (t.d.drawer fl dr).stats = w.stats ++ (out false).stats.map (fun p => (n.val, p.1, p.2.1, p.2.2)) ∧
        t.d.cells = s.d.cells ∧ t.z = s.z ∧ t.pending = s.pending) ∧
    (b.replayDue = false → (out false).status = stOK → opThreshold f.opRec ≠ 0 → opThreshold f.opRec ≤ (out false).reqSat →
      ∃ t, exec (.blockDrain n) s = .next t ∧ (t.d.coreRun n).drains = { b with replayDue := true } :: rest ∧
        (t.d.drawer fl dr).writes = w.writes ++ (out false).writes ∧ (t.d.drawer fl dr).counts = w.counts ∧ t.d.cells = s.d.cells ∧ t.z = s.z ∧ t.pending = s.pending) ∧
    (∀ st, opOutput f.opRec = some st → st.dest = true → b.replayDue = false → (out false).status = stOK →
      (opThreshold f.opRec = 0 ∨ (out false).reqSat < opThreshold f.opRec) →
      let at_ := fun (p : Nat × List Nat) => bitsAt st.arg32 0 6 + p.1
      (∀ p ∈ (out false).images, s.d.macroOn n (at_ p) = true ∧ s.d.bankOn n (at_ p) (1 - s.d.activeBank n (at_ p)) = true) →
      ∃ t, exec (.blockDrain n) s = .next t ∧ (t.d.coreRun n).drains = rest ∧
        (t.d.flight fl).map (·.left) = some (f.left ++ (out false).images.map fun p => n.val * 68 + at_ p) ∧ t.d.cells = s.d.cells ∧ t.z = s.z ∧ t.pending = s.pending) ∧
    (toMemory → b.replayDue = true → (out true).status = stOK →
      ∃ t, exec (.tileReplay n) s = .next t ∧ (t.d.coreRun n).drains = rest ∧ (t.d.drawer fl dr).writes = w.writes ++ (out true).writes ∧
        t.d.get (F.CORE_CNT_REPLAYS n) = (s.d.get (F.CORE_CNT_REPLAYS n) + 1) % 2 ^ 64 ∧ Keeps s t))

/-- R145, R153, R182: A gang that is free, whole, not held and first in bank order, whose tile needs no halo and no pool staging, starts its tile, claimed or dealt: where
every core may stage its first rows of A, the operation runs on, and while it runs every core of the gang shows BUSY with the tile. The gang of a tile that shares a halo
it does not hold reads the slot of the tile before: a header that names that tile is a hit, any other a miss. Where the spec leaves a choice the model's stands: log
entries 141, 260. -/
def Obligations.tile_start_and_halo : Prop :=
  (∀ (s : State) (fl dr t g : Nat) (f : Flight) (stolen : Bool), s.d.opOf fl dr = some f →
    let o := f.opRec
    let w := tget {} f.drawers dr
    opRecordOk s.z o f.partition f.deal = true → w.started = false → w.abandoned = false → (opCores o dr).all (fun n => (s.d.coreRun n).flight.isNone) = true → s.d.gangWhole o dr = true →
    s.d.gangHeld o dr = false → s.d.gangFirst fl o dr = true → haloBefore o t = none → haloOf o t = none → opStage2 o = false →
    (if f.deal then t = dr + w.pos * opDrawers o ∧ t < opTiles o ∧ g = (if w.again then f.rerun else t + 1) ∧ stolen = false else w.tile = some (t, g, stolen)) →
    ∃ u, exec (.tileStart fl dr) s = .next u ∧ ((opCores o dr).all (stageable s o f.partition dr t) = true → u.d.running fl = true) ∧ (u.d.running fl = true →
      (u.d.drawer fl dr).started = true ∧ (u.d.drawer fl dr).tile = some (t, g, stolen) ∧
      ∀ n ∈ opCores o dr, u.d.get (F.SEQ_MODE_BUSY n) = 1 ∧ u.d.get (F.SEQ_TILE_TILE n) = t % 2 ^ 32 ∧ (u.d.coreRun n).flight = some fl ∧ (u.d.coreRun n).tile = t)) ∧
  (∀ (s : State) (fl dr t g bb r0 k : Nat) (stolen : Bool) (f : Flight), s.d.opOf fl dr = some f →
    let o := f.opRec
    let w := tget {} f.drawers dr
    let a := haloAddr o (t - 1)
    let h := s.d.peekNat a 64
    let rows := fld h 8 0 16
    f.deal = false → w.tile = some (t, g, stolen) → haloBefore o t = some (bb, r0, k) → w.started = false → w.haloDone = false → haloLocal f w t stolen = false →
    (rangeStatus s.z s.d (some f.partition) a 64 = none → fld h 0 0 32 = t - 1 →
      rangeStatus s.z s.d (some f.partition) a (64 + rows * haloRowBytes o) = none →
      let held : HaloData := some (bb, fld h 10 0 16, rows, s.d.peeks (a + 64) (rows * haloRowBytes o))
      Gives s (exec (.haloFetch fl dr) s)
        ((s.d.modDrawer fl dr fun w => { w with haloDone := true, halo := held }).bump (F.SEQ_CNT_HALO_HIT (opLead o dr)) 1)) ∧
    (fld h 0 0 32 ≠ t - 1 →
      Gives s (exec (.haloFetch fl dr) s)
        ((s.d.modDrawer fl dr fun w => { w with haloDone := true, halo := none }).bump (F.SEQ_CNT_HALO_MISS (opLead o dr)) 1)))

/-- R173, R174, R176, R180: A lead with an empty hand, or with DRAW_AHEAD one that has started the last tile of its hand, draws the next tiles of its deck, HAND_SIZE of
them or those that are left; a draw at the end of the deck is empty and counted. A lead claims the next tile of its hand, or the tile that its search found, with a swap
of the tile's claim word; a stolen tile is counted. A tile that another holds or has done is lost and counted, and the hand moves on. Where the spec leaves a choice the
model's stands: log entry 145. -/
def Obligations.deck_draw_and_claim : Prop :=
  (∀ (s : State) (fl dr : Nat) (f : Flight), s.d.opOf fl dr = some f →
    let o := f.opRec
    let w := tget {} f.drawers dr
    let v := (s.d.atomicAdd (opDeck o) 8 (opHand o)).1
    f.deal = false → w.empty = false → w.next = none → (w.cur = none ∨ (f.drawAhead = true ∧ ∃ h, w.cur = some h ∧ w.started = true ∧ w.pos + 1 = h.count)) →
    s.d.gangWhole o dr = true → s.d.gangHeld o dr = false →
    (opTiles o ≤ v → ∃ t, exec (.deckDraw fl dr) s = .next t ∧ (t.d.drawer fl dr).empty = true ∧ (t.d.drawer fl dr).cur = w.cur ∧
      t.d.get (F.DECK_CNT_EMPTY (opLead o dr)) = (s.d.get (F.DECK_CNT_EMPTY (opLead o dr)) + 1) % 2 ^ 64 ∧
      t.d.mem = (s.d.atomicAdd (opDeck o) 8 (opHand o)).2.mem ∧ t.z = s.z ∧ t.pending = s.pending) ∧
    (v < opTiles o → ∃ t, exec (.deckDraw fl dr) s = .next t ∧
      (w.cur = none → (t.d.drawer fl dr).cur = some ⟨v, min (v + opHand o) (opTiles o) - v⟩ ∧ (t.d.drawer fl dr).pos = 0) ∧
      (w.cur ≠ none → (t.d.drawer fl dr).cur = w.cur ∧ (t.d.drawer fl dr).next = some ⟨v, min (v + opHand o) (opTiles o) - v⟩) ∧
      (t.d.drawer fl dr).empty = false ∧
      t.d.get (F.DECK_CNT_DRAWS (opLead o dr)) = (s.d.get (F.DECK_CNT_DRAWS (opLead o dr)) + 1) % 2 ^ 64 ∧ t.z = s.z ∧ t.pending = s.pending)) ∧
  (∀ (s : State) (fl dr t : Nat) (f : Flight) (stolen : Bool), s.d.opOf fl dr = some f →
    let o := f.opRec
    let w := tget {} f.drawers dr
    let a := claimAddr o t
    let gen := s.d.atomicAdd (opDeck o + 24) 8 1
    let old := gen.2.atomicSwap a 8 (claimWord claimStarted dr f.opSeq gen.1)
    f.deal = false → w.tile = none →
    ((stolen = false ∧ ∃ h, w.cur = some h ∧ t = h.first + w.pos) ∨ (stolen = true ∧ w.cur = none ∧ ∃ p, w.target = some p ∧ t = p.2.2)) →
    s.d.gangWhole o dr = true → s.d.gangHeld o dr = false →
    (opCores o dr).all (fun n => (s.d.coreRun n).flight.isNone) = true → s.d.gangFirst fl o dr = true →
    (claimTaken (claimState f.opSeq (s.d.peekNat a 8)) = false → claimTaken (claimState f.opSeq old.1) = false →
      ∃ u, exec (.tileClaim fl dr) s = .next u ∧ (u.d.drawer fl dr).tile = some (t, gen.1 % 2 ^ 32, stolen) ∧ (u.d.drawer fl dr).started = false ∧
        u.d.mem = (if stolen then (old.2.atomicAdd (opDeck o + 32) 8 1).2.mem else old.2.mem) ∧
        u.d.get (F.DECK_CNT_STEALS (opLead o dr)) = (s.d.get (F.DECK_CNT_STEALS (opLead o dr)) + (if stolen then 1 else 0)) % 2 ^ 64 ∧
        u.d.cells = s.d.cells ∧ u.z = s.z ∧ u.pending = s.pending) ∧
    (claimTaken (claimState f.opSeq (s.d.peekNat a 8)) = true →
      ∃ u, exec (.tileClaim fl dr) s = .next u ∧ (u.d.drawer fl dr).tile = none ∧ (stolen = true → (u.d.drawer fl dr).lostAt = w.target) ∧
        (∀ h, stolen = false → w.cur = some h → w.pos + 1 < h.count → (u.d.drawer fl dr).pos = w.pos + 1) ∧
        u.d.get (F.DECK_CNT_LOST (opLead o dr)) = (s.d.get (F.DECK_CNT_LOST (opLead o dr)) + 1) % 2 ^ 64 ∧ u.z = s.z ∧ u.pending = s.pending))

/-- R177, R182: a tile that every core of its gang has walked and drained finishes: its writes are made, its counts are the operation's and its cores are free; a claimed
tile's claim word becomes DONE. The last tile of an operation that gathers no statistics completes it. Where the spec leaves a choice the model's stands: log entry 9. -/
def Obligations.tile_finish : Prop :=
  ∀ (s : State) (fl dr t g : Nat) (stolen : Bool) (f : Flight), s.d.opOf fl dr = some f →
    let o := f.opRec
    let w := tget {} f.drawers dr
    let written := w.writes.foldl (fun d x => d.tileWrite fl x) s.d
    let marked := (written.storeNat none (claimAddr o t) 8 (claimWord claimDone dr f.opSeq g)).atomicAdd (opDeck o + 8) 8 1
    let last := if f.deal then f.finished + 1 = opTiles o else marked.1 + 1 = opTiles o
    opRecordOk s.z o f.partition f.deal = true → (∀ n m, (s.d.macroRun n m).waiting = []) → (f.deal = false → w.next = none) →
    w.tile = some (t, g, stolen) → w.started = true → w.abandoned = false → (opChain o).all (fun st => st.type ≠ 7) = true →
    (opCores o dr).all (fun n => decide ((s.d.coreRun n).flight = some fl) && (s.d.coreRun n).walked && decide ((s.d.coreRun n).drains = []) &&
      !(f.left.any fun k => k / 68 = n)) = true →
    firstRefused s.z s.d (some f.partition) (w.writes.map fun x => (x.addr, x.bytes)) = none →
    ∃ u h, exec (.tileFinish fl dr) s = .next u ∧ u.d.flight fl = some h ∧ h.finished = f.finished + 1 ∧
      h.counts = f.counts.add (tileCounts f w t) ∧ (h.ready = true ↔ last) ∧
      (f.deal = true → u.d.mem = written.mem) ∧ (f.deal = false → ¬ last → u.d.mem = marked.2.mem) ∧
      (∀ n ∈ opCores o dr, u.d.get (F.SEQ_MODE_BUSY n) = 0) ∧ u.z = s.z ∧ u.pending = s.pending

/-- R162, R163, R178, R179, R181: A lead whose draw was empty and that is not held finds a tile to steal or stops; a lead returns the tile it abandoned with a swap of its
claim word to RETURNED; an operation of which no lead is progressing, or one with a dealt tile for a gang that is not whole, ends with CORE_UNAVAILABLE, and any other
runs on. L0_ONLY of a core without a deck tile changes at once and otherwise waits; a write of SEQ_L0_CMD by a host function is discarded, and one by a processor to a
core that is ON, not held and without a tile runs the level-0 command at that offset: a command outside the scratchpad ends with FAULT and cause 3. Where the spec leaves
a choice the model's stands: log entries 144, 146, 257, 258, 259. -/
def Obligations.steal_return_and_level0 : Prop :=
  (∀ (s : State) (fl dr : Nat) (f : Flight), s.d.opOf fl dr = some f →
    let o := f.opRec
    let w := tget {} f.drawers dr
    (f.deal = false → w.empty = true → w.cur = none → w.next = none → w.tile = none → w.target = none → w.stopped = false → s.d.gangWhole o dr = true →
      s.d.gangHeld o dr = false →
      let claimable := fun (p : Nat × Nat × Nat) => searchAfter w.lostAt p && decide (p.2.2 < opTiles o) &&
        !claimTaken (claimState f.opSeq (s.d.peekNat (claimAddr o p.2.2) 8))
      (∀ p, f.stealEn = true → (s.d.searchList f dr).find? claimable = some p →
        Gives s (exec (.stealSearch fl dr) s) (s.d.modDrawer fl dr fun w => { w with target := some p })) ∧
      ((opChain o).all (fun st => st.type ≠ 7) = true → (f.stealEn = false ∨ (s.d.searchList f dr).find? claimable = none) →
        ∃ u, exec (.stealSearch fl dr) s = .next u ∧ (u.d.drawer fl dr).stopped = true ∧ Keeps s u)) ∧
    (∀ t g stolen, w.tile = some (t, g, stolen) → w.abandoned = true →
      let sw := s.d.atomicSwap (claimAddr o t) 8 (claimWord claimReturned dr f.opSeq g)
      sw.1 = claimWord claimStarted dr f.opSeq g →
      ∃ u, exec (.tileReturn fl dr) s = .next u ∧ (u.d.drawer fl dr).tile = none ∧ (u.d.drawer fl dr).abandoned = false ∧ u.d.mem = sw.2.mem ∧
        (∀ x < opDrawers o, s.d.gangWhole o x = true → (tget {} f.drawers x).stopped = true → (u.d.drawer fl x).stopped = false) ∧
        (∀ x < opDrawers o, (tget {} f.drawers x).stopped = false → (u.d.drawer fl x).lostAt = (tget {} f.drawers x).lostAt) ∧
        u.d.get (F.DECK_CNT_RETURNS (opLead o dr)) = (s.d.get (F.DECK_CNT_RETURNS (opLead o dr)) + 1) % 2 ^ 64 ∧ u.d.cells = s.d.cells ∧ u.z = s.z ∧ u.pending = s.pending) ∧
    (dr = 0 →
      let stalled := (List.range (opDrawers o)).any (s.d.progressing f) = false ∨
        (f.deal = true ∧ (List.range (opDrawers o)).any (fun x => f.hasWork x && !s.d.gangWhole o x) = true)
      (stalled → (∀ n m, (s.d.macroRun n m).waiting = []) →
        ∃ u h, exec (.stallTimeout fl) s = .next u ∧ u.d.flight fl = some h ∧ h.ready = true ∧
          h.status = (if f.status = stOK then stCoreUnavailable else f.status) ∧ u.z = s.z ∧ u.pending = s.pending) ∧
      (¬ stalled → Gives s (exec (.stallTimeout fl) s) s.d))) ∧
  (∀ (s : State) (q : Requester) (n : Fin 256) (v : Fin 2) (off : BitVec 32),
    (level0Source q = true → (s.d.coreRun n).flight = none →
      ∃ t, exec (.l0OnlyChange q n v) s = .next t ∧ t.d.get (F.SEQ_MODE_L0_ONLY n) = v ∧ t.d.get (F.SEQ_MODE_PENDING n) = 0 ∧
        (t.d.coreRun n).l0Want = none ∧ Keeps s t) ∧
    (level0Source q = true → (s.d.coreRun n).flight ≠ none →
      ∃ t, exec (.l0OnlyChange q n v) s = .next t ∧ t.d.get (F.SEQ_MODE_L0_ONLY n) = s.d.get (F.SEQ_MODE_L0_ONLY n) ∧ t.d.get (F.SEQ_MODE_PENDING n) = 1 ∧
        (t.d.coreRun n).l0Want = some v ∧ Keeps s t) ∧
    (∀ f, q = .fn f → Gives s (exec (.level0Command q n off) s) s.d) ∧
    ((∀ f, q ≠ .fn f) → s.d.coreWorks n = true → (s.d.coreRun n).flight = none → (off.toNat % 32 ≠ 0 ∨ 0x80000 < off.toNat + 32) →
      ∃ t, exec (.level0Command q n off) s = .next t ∧ t.d.get (F.SEQ_L0_STATUS_FAULT n) = 1 ∧ t.d.get (F.SEQ_L0_STATUS_CAUSE n) = 3 ∧
        OnlyRegs s t [F.SEQ_L0_CMD_CMD_OFF n, F.SEQ_L0_STATUS_DONE n, F.SEQ_L0_STATUS_FAULT n, F.SEQ_L0_STATUS_CAUSE n]) ∧
    ((∀ f, q ≠ .fn f) → s.d.coreWorks n = true → (s.d.coreRun n).flight = none → off.toNat % 32 = 0 → off.toNat + 32 ≤ 0x80000 →
      let c := s.d.peekNat (scratchAddr n off.toNat) 32
      let ms := (List.range 64).filter fun m => bitsAt (fld c 8 0 64) m 1 = 1
      let w := fun (m : Nat) => slotWidth (s.d.get (cimSLOT n m (s.d.activeBank n m)))
      let results := (fld c 5 0 6 + 1) * ms.length * (128 / (ms.foldl (fun a m => max a (w m)) 1)) * (512 / tapRows (fld c 6 0 3))
      level0Ok c = true → fld c 0 0 32 + (fld c 5 0 6 + 1) * 64 * fmtWidth (fld c 4 0 5) ≤ 0x80000 → fld c 16 0 32 % 8 = 0 →
      fld c 16 0 32 + 8 * results ≤ 0x80000 → (∀ m ∈ ms, s.d.macroOn n m = true ∧ s.d.bankOn n m (s.d.activeBank n m) = true) →
      ∃ t, exec (.level0Command q n off) s = .next t ∧ t.d.get (F.SEQ_L0_STATUS_DONE n) = 1 ∧ t.d.get (F.SEQ_L0_STATUS_FAULT n) = 0 ∧
        t.d.get (F.SEQ_L0_STATUS_COMMANDS n) = (s.d.get (F.SEQ_L0_STATUS_COMMANDS n) + 1) % 2 ^ 16 ∧
        (∀ a, a < scratchAddr n (fld c 16 0 32) ∨ scratchAddr n (fld c 16 0 32) + 8 * results ≤ a → Memory.read t.d.mem a = Memory.read s.d.mem a) ∧
        t.d.cells = s.d.cells ∧ t.d.out = s.d.out ∧ t.z = s.z ∧ t.pending = s.pending))

/-! ### Banks, walls and health -/

/-- R188, R190, R193, R195, R199: a cycle of a bank that is not busy grants the claim whose master comes next in turn after the one granted last, and each other claim
counts as a conflict of its master. A granted read that is allowed and clean returns the word, one with a lasting error returns an error; a granted write changes its
bytes, and takes a second cycle where it covers part of a granule; a refused one is counted, a read returns zeros, and nothing is written. In the second cycle of an
access every claim waits and the bank is free after it. Where the spec leaves a choice the model's stands: log entry 150. -/
def Obligations.bank_cycle : Prop :=
  ∀ (s : State) (arr : BankArray) (bank : Fin 192) (claims : List BankClaim) (c : BankClaim),
    let A := arrOf arr
    let a := wordAddr A bank c.row
    let key := bankKey A bank
    let turn := robin (arrMasters A) (tget (arrMasters A - 1) s.d.pool.lastGrant key)
    let st := portStatus s.z s.d a c.master (c.partition.map (·.val)) c.proc0
    let others := claims.filter fun x => x.master ≠ c.master
    let counted := s.d.conflicts A others
    let granted := { counted with pool := { s.d.pool with lastGrant := tset s.d.pool.lastGrant key c.master } }
    bank.val < arrBanks A → (∀ x ∈ claims, x.master < arrMasters A) → (claims.map (·.master)).Nodup → c ∈ claims →
    (∀ h, tfind s.d.pool.busy key = some h →
      ∃ t, exec (.bankAccess arr bank claims .clean) s = .next t ∧ t.d.bankBusy key = false ∧ Keeps s t ∧ ∀ x ∈ claims,
        let n := if x.master = h then 0 else 1
        (A < 256 → t.d.get (F.POOL_SP_CNT_CONFLICT A x.master) = (s.d.get (F.POOL_SP_CNT_CONFLICT A x.master) + n) % 2 ^ 64) ∧
        (256 ≤ A → A < 260 → t.d.get (F.POOL_DP_CNT_CONFLICT (A - 256) x.master) = (s.d.get (F.POOL_DP_CNT_CONFLICT (A - 256) x.master) + n) % 2 ^ 64)) ∧
    (s.d.bankBusy key = false → (∀ x ∈ claims, turn c.master ≤ turn x.master) → c.flight = none →
      arrBanks A * arrWord A * (c.row + 1) ≤ (if A < 256 then 0x80000 else if A < 260 then 0x3000000 else 0x400000) →
      (c.op = .read → st = stOK → s.d.inWipe a = false →
        ∃ t, exec (.bankAccess arr bank claims .clean) s = .next t ∧ t.d.out = s.d.out ++ [.bankReply c.master (s.d.peeks a (arrWord A)) false] ∧ t.d.mem = s.d.mem ∧
          t.d.regs = counted.regs ∧ tget 0 t.d.pool.lastGrant key = c.master ∧ t.z = s.z ∧ t.pending = s.pending) ∧
      (∀ g, c.op = .read → st = stOK → s.d.inWipe a = false →
        ∃ t l, exec (.bankAccess arr bank claims (.lasting g)) s = .next t ∧ t.d.out = s.d.out ++ l ++ [.bankReply c.master [] true] ∧ t.d.mem = s.d.mem ∧ t.z = s.z ∧
          t.pending = s.pending) ∧
      (c.op = .read → st ≠ stOK →
        Gives s (exec (.bankAccess arr bank claims .clean) s) ((granted.countDenied a).emit (.bankReply c.master (List.replicate (arrWord A) 0) false))) ∧
      (∀ bytes, c.op = .write bytes → st = stOK → s.d.inWipe a = false →
        let inWord := bytes.filter fun p => decide (p.1 < arrWord A)
        ∃ t, exec (.bankAccess arr bank claims .clean) s = .next t ∧ t.d.mem = (inWord.foldl (fun d p => d.bankWrite (a + p.1) [p.2]) s.d).mem ∧
          tfind t.d.pool.busy key = (if partGranule inWord then some c.master else none) ∧
          t.d.out = s.d.out ∧ t.d.cells = s.d.cells ∧ t.z = s.z ∧ t.pending = s.pending) ∧
      (∀ bytes, c.op = .write bytes → st ≠ stOK → Gives s (exec (.bankAccess arr bank claims .clean) s) (granted.countDenied a)))

/-- R192, R194, R195: an accepted atomic at a bank answers the value before it, stores the sum modulo 2^32 or 2^64, or the operand, and takes the bank for a second cycle;
a refused one answers its status and stores nothing. Only Helam processor 0 reaches a vault. -/
def Obligations.atomics : Prop :=
  ∀ (s : State) (master : Fin 256) (part : Option (Fin 4)) (proc0 : Bool) (a : Nat) (w : AtomicWidth) (v : BitVec 64),
    let n := atomBytes w
    let refused := atomicStatus s.z s.d (if proc0 then none else part.map (·.val)) a n
    let asked := s.d.grantAlone master.val a
    let ok := fun (o : Host.Outcome State Fault Refusal) (x : Nat) =>
      ∃ t, o = .next t ∧ t.d.out = s.d.out ++ [.atomicReply stOK (s.d.peekNat a n)] ∧ t.d.mem = (s.d.bankWrite a (leBytes n x)).mem ∧
        (∀ p, s.d.wordPlace a = some p → tfind t.d.pool.busy (bankKey p.1 p.2.1) = some master.val) ∧ t.d.cells = s.d.cells ∧ t.z = s.z ∧ t.pending = s.pending
    let no := fun (o : Host.Outcome State Fault Refusal) (st : Nat) => Gives s o ((asked.denied a st).emit (.atomicReply st 0))
    (refused = stOK → (proc0 = true ∨ ∀ x off, s.d.region a = .pool x off → off < vaultOff) → s.d.inWipe a = false →
      ok (exec (.atomicAdd ⟨master, part⟩ proc0 none a w v .clean) s) ((s.d.peekNat a n + v.toNat % 2 ^ (8 * n)) % 2 ^ (8 * n)) ∧
      ok (exec (.atomicSwap ⟨master, part⟩ proc0 none a w v .clean) s) (v.toNat % 2 ^ (8 * n))) ∧
    (refused ≠ stOK →
      no (exec (.atomicAdd ⟨master, part⟩ proc0 none a w v .clean) s) refused ∧ no (exec (.atomicSwap ⟨master, part⟩ proc0 none a w v .clean) s) refused) ∧
    (∀ x off, refused = stOK → proc0 = false → s.d.region a = .pool x off → vaultOff ≤ off →
      no (exec (.atomicAdd ⟨master, part⟩ proc0 none a w v .clean) s) stVaultDenied ∧ no (exec (.atomicSwap ⟨master, part⟩ proc0 none a w v .clean) s) stVaultDenied)

/-- R198, R200, R204: a patrol read of a word of a die pool is counted where the patrol is on and the bank is free, and is not made otherwise; the write-back of a
corrected granule takes place in a free cycle of its bank; a borrowed bank whose copy has ended is handed over at the next boundary. Where the spec leaves a choice the
model's stands: log entry 151. -/
def Obligations.patrol_writeback_and_borrow : Prop :=
  ∀ (s : State) (arr : BankArray) (bank : Fin 192) (die spare : Fin 4) (word : Fin 786432),
    (s.d.bit (F.POOL_DP_SCRUB_EN die) = true → s.d.bankBusy (bankKey (256 + die) (word % 192)) = false →
      ∃ t, exec (.poolPatrolRead die word .clean) s = .next t ∧ t.d.get (F.POOL_DP_CNT_SCRUBBED die) = (s.d.get (F.POOL_DP_CNT_SCRUBBED die) + 1) % 2 ^ 64 ∧ Keeps s t) ∧
    (s.d.bit (F.POOL_DP_SCRUB_EN die) = false ∨ s.d.bankBusy (bankKey (256 + die) (word % 192)) = true → Gives s (exec (.poolPatrolRead die word .clean) s) s.d) ∧
    (∀ x, s.d.bankBusy (bankKey (arrOf arr) bank) = false → s.d.pool.writeBack.find? (fun x => x.1 = bankKey (arrOf arr) bank) = some x →
      Gives s (exec (.correctionWriteback arr bank) s) { s.d with pool := { s.d.pool with writeBack := s.d.pool.writeBack.erase x } }) ∧
    (s.d.bankBusy (bankKey (arrOf arr) bank) = true → Gives s (exec (.correctionWriteback arr bank) s) s.d) ∧
    (∀ b, tfind s.d.pool.borrows (arrOf arr * 4 + spare) = some b → b.phase ≠ 1 →
      Gives s (exec (.borrowCopyDone arr spare) s) (s.d.setBorrow (arrOf arr) spare { b with due := true }))

/-- R206, R207: a wipe request of Helam processor 0 clears the vault of every die, whose every byte then reads zero, and shows it; a request of another requester changes
nothing; a wipe that ends well is shown no more, and one that fails sets FAULT. -/
def Obligations.vault_wipe : Prop :=
  ∀ (s : State) (q : Requester) (die : Fin 4) (ok : Bool) (bank : Fin 196) (row : Fin 4096),
    (∃ t, exec (.vaultWipeRequest (.proc 0)) s = .next t ∧ t.d.get F.POOL_VAULT_STATUS_WIPING = 0xF ∧ t.d.get F.POOL_VAULT_STATUS_LAST_CAUSE = 3 ∧
      t.d.get (F.POOL_DP_STATUS_WIPING die) = 1 ∧ (∀ a, vaultOff ≤ a → a < vaultOff + 0x100000 → Memory.read t.d.mem (poolAddr die a) = 0) ∧
      t.d.cells = s.d.cells ∧ t.d.out = s.d.out ∧ t.z = s.z ∧ t.pending = s.pending) ∧
    (q ≠ .proc 0 → Gives s (exec (.vaultWipeRequest q) s) s.d) ∧
    (s.d.vaultWiping die = true → ∃ t, exec (.vaultWipeEnd die ok bank row) s = .next t ∧ t.d.vaultWiping die = false ∧ t.d.get (F.POOL_DP_STATUS_WIPING die) = 0 ∧
      (ok = true → OnlyRegs s t [F.POOL_VAULT_STATUS_WIPING, F.POOL_DP_STATUS_WIPING die]) ∧
      (ok = false → t.d.get (F.POOL_DP_STATUS_VAULT_FAULT die) = 1 ∧ t.d.mem = s.d.mem ∧ t.z = s.z ∧ t.pending = s.pending))

/-- R219, R221, R222, R223, R227, R229: A stack read of a unit that reads well returns its 256 bytes; one with a lasting error returns them after the unit has been
rebuilt, where its wall has parity and is normal, and an error in a wall without parity; one that the address or the partition forbids returns zeros. Bytes of a stripe of
a parity wall wait in arrival order while the stripe's lock is held or others wait for it, and otherwise enter the stripe's assembly slot, or are written at once where
they are the whole stripe; a request that waited is served when the lock is granted; an assembly slot that times out is written, or waits for the lock, and is counted.
Where the spec leaves a choice the model's stands: log entries 155, 156. -/
def Obligations.stack_reads_and_wall_writes : Prop :=
  (∀ (s : State) (a w off : Nat) (part : Option (Fin 4)) (source : Fin 5) (granule : Fin 32) (other : Option (Fin 12)) (severe : Bool), s.d.region a = .wall w off →
    let st := accessStatus s.z s.d (part.map (·.val)) a
    let base := a - off % 256
    let S := (wallPlace (s.d.wallParity w) off).1
    let l := (wallPlace (s.d.wallParity w) off).2.2.1
    let good := (List.range 12).all (fun k => !s.d.unitBad w S k) = true
    (st = stOK → s.d.slotOf w S = none → good → (s.d.missing w S ≠ some l ∨ other = none) →
      ∃ t, exec (.stackRead a part none source granule .clean other severe) s = .next t ∧ t.d.out = s.d.out ++ [.unitReply (s.d.peeks base 256) false] ∧
        (s.d.missing w S ≠ some l → t.d.get (F.MEM_STACK_CNT_READ_UNITS (12 * w + l)) = (s.d.get (F.MEM_STACK_CNT_READ_UNITS (12 * w + l)) + 1) % 2 ^ 64) ∧
        (s.d.missing w S = some l → t.d.get (F.MEM_WALL_CNT_RECON_READS w) = (s.d.get (F.MEM_WALL_CNT_RECON_READS w) + 1) % 2 ^ 64) ∧
        t.d.mem = s.d.mem ∧ t.d.cells = s.d.cells ∧ t.z = s.z ∧ t.pending = s.pending) ∧
    (st = stOK → s.d.slotOf w S = none → good → s.d.wallParity w = true → s.d.wallState w = 1 → s.d.missing w S = none → s.d.stripeWaits w S = false →
      ∃ t l0, exec (.stackRead a part none source granule .lasting none severe) s = .next t ∧
        t.d.out = s.d.out ++ l0 ++ [.unitReply (s.d.peeks base 256) false] ∧
        t.d.get (F.MEM_STACK_CNT_RECONSTRUCTED (12 * w + l)) = (s.d.get (F.MEM_STACK_CNT_RECONSTRUCTED (12 * w + l)) + 1) % 2 ^ 64 ∧ t.d.mem = s.d.mem ∧ t.z = s.z ∧
        t.pending = s.pending) ∧
    (st = stOK → s.d.missing w S ≠ some l → s.d.wallParity w = false →
      ∃ t l0, exec (.stackRead a part none source granule .lasting other severe) s = .next t ∧ t.d.out = s.d.out ++ l0 ++ [.unitReply [] true] ∧ t.z = s.z ∧
        t.pending = s.pending) ∧
    (st ≠ stOK → Gives s (exec (.stackRead a part none source granule .clean other severe) s)
      ((s.d.denied a st).emit (.unitReply (List.replicate 256 0) false)))) ∧
  (∀ (s : State) (a w off : Nat) (bytes : List Byte) (part : Option (Fin 4)) (held : List (Fin 100663296)) (W : Fin 2) (S : Fin 100663296) (cycles : Nat),
    (s.d.region a = .wall w off → rangeStatus s.z s.d (part.map (·.val)) a bytes.length = none → s.d.wallParity w = true → bytes ≠ [] →
      off + bytes.length ≤ s.d.wallSize w → off % 2816 + bytes.length ≤ 2816 →
      let T := off / 2816
      let mine := (List.range bytes.length).map fun i => (off % 2816 + i, (nth 0 bytes i).toNat)
      let base := s.d.put F.MEM_CLEAR_CLEARED 0
      let waits := T ∈ held.map (·.val) ∨ s.d.stripeWaits w T = true
      (waits → Gives s (exec (.wallWrite a bytes part none held) s)
        { base with wall := { s.d.wall with waiting := s.d.wall.waiting ++ [⟨w, T, .write none mine⟩] } }) ∧
      (¬ waits → Gives s (exec (.wallWrite a bytes part none held) s) (base.stripeWrite none w T mine)) ∧
      (¬ waits → bytes.length < 2816 → s.d.slotOf w T = none → (s.d.wall.slots.filter fun t => homeDie t.wall t.stripe = homeDie w T).length < 256 →
        s.d.get F.MEM_ASM_CFG_TIMEOUT_NS ≠ 0 → ∃ t, exec (.wallWrite a bytes part none held) s = .next t ∧
          t.d.wall.slots = s.d.wall.slots ++ [⟨w, T, s.d.now, mine, []⟩] ∧ Keeps s t) ∧
      (¬ waits → bytes.length = 2816 → ∃ t, exec (.wallWrite a bytes part none held) s = .next t ∧
        t.d.get (F.MEM_WALL_CNT_FULL_STRIPE w) = (s.d.get (F.MEM_WALL_CNT_FULL_STRIPE w) + 1) % 2 ^ 64 ∧ t.d.slotOf w T = none ∧ t.d.out = s.d.out ∧
        t.d.cells = s.d.cells ∧ t.z = s.z ∧ t.pending = s.pending)) ∧
    (∀ r, s.d.wall.waiting.find? (fun r => r.wall = W.val && r.stripe = S.val) = some r →
      let served := { s.d with wall := { s.d.wall with waiting := s.d.wall.waiting.erase r } }
      Gives s (exec (.stripeLockGrant W S cycles) s) ((served.bump (F.MEM_WALL_CNT_LOCK_WAIT W) cycles).lockedWork W S r.work)) ∧
    (∀ sl, s.d.slotOf W S = some sl → sl.wall = W.val → sl.stripe = S.val →
      (s.d.stripeWaits W S = false → Gives s (exec (.assemblySlotTimeout W S) s) ((s.d.closeSlot sl).bump (F.MEM_WALL_CNT_ASM_TIMEOUT W) 1)) ∧
      (s.d.stripeWaits W S = true → Gives s (exec (.assemblySlotTimeout W S) s) ((s.d.await W S .close).bump (F.MEM_WALL_CNT_ASM_TIMEOUT W) 1))))

/-- R219, R224: a byte written to a parity wall none of whose stacks is missing leaves the stripe consistent: the parity unit is the XOR of the data units, wherever it
was before. -/
def Obligations.parity_is_kept : Prop :=
  ∀ (d : Dev) (w S u b : Nat) (v : Byte), Memory.wf d.mem = true → d.wallParity w = true → d.get (F.MEM_WALL_STATUS_MISSING w) = 15 → u < 11 → b < 256 →
    let t := d.pokeUnit w S u b v
    let x := fun (d : Dev) => (List.range 12).foldl (fun (a : Byte) l => a ^^^ d.cell (12 * w + l) S b) 0
    x t = x d ∧ t.cell (12 * w + (S % 12 + 1 + u) % 12) S b = v

/-- R222, R225, R228, R229, R230, R232, R234: A byte of a unit of a lost stack reads as the XOR of the others, and a rebuild step writes just that to the stack that
returns: the stripe is rebuilt, and the wall is normal after its last stripe. A step whose stripe others wait for waits behind them. A parity error of a stack link whose
reissue succeeds counts a retry; one whose reissue fails stops the stack. A patrol read of a clean unit is counted, and so is a severity report that comes with it. A
stack's temperature is shown. Where the spec leaves a choice the model's stands: log entries 154, 243. -/
def Obligations.rebuild_and_stack_links : Prop :=
  (∀ (s : State) (w : Fin 2), MemoryOk s → s.d.wallState w = 3 → s.d.get (F.MEM_WALL_STATUS_MISSING w) < 12 →
    let S := s.d.get (F.MEM_WALL_REBUILD_STRIPE w)
    let l := s.d.get (F.MEM_WALL_STATUS_MISSING w)
    (s.d.stripeWaits w S = false → ∃ t, exec (.rebuildStep w) s = .next t ∧
      (∀ b, b < 256 → t.d.cell (12 * w + l) S b = s.d.xorOthers w S b l) ∧
      (∀ k, (∀ b, b < 256 → k ≠ stackKey (12 * w + l) S b) → Memory.read t.d.mem k = Memory.read s.d.mem k) ∧
      t.d.get (F.MEM_WALL_CNT_REBUILT w) = (s.d.get (F.MEM_WALL_CNT_REBUILT w) + 1) % 2 ^ 64 ∧
      t.d.wallState w = (if S + 1 < 100663296 then 3 else 1) ∧ t.d.cells = s.d.cells ∧ (s.d.othersBad w S l = [] → t.d.out = s.d.out) ∧ t.z = s.z ∧ t.pending = s.pending) ∧
    (s.d.stripeWaits w S = true → s.d.wall.waiting.contains ⟨w, S, .rebuild⟩ = false →
      Gives s (exec (.rebuildStep w) s) { s.d with wall := { s.d.wall with waiting := s.d.wall.waiting ++ [⟨w, S, .rebuild⟩] } })) ∧
  (∀ (s : State) (st : Fin 24) (S : Fin 100663296) (granule : Fin 32) (other : Option (Fin 12)) (severe fails : Bool) (temp : BitVec 8),
    (s.d.get (F.MEM_STACK_STATE_STATE st) = codeON →
      ∃ t, exec (.stackLinkParityError st fails) s = .next t ∧ t.d.get (F.MEM_STACK_CNT_LINK_RETRY st) = (s.d.get (F.MEM_STACK_CNT_LINK_RETRY st) + 1) % 2 ^ 64 ∧
        t.d.get (F.MEM_STACK_STATE_STATE st) = (if fails then codeSTOPPING else codeON) ∧ t.d.mem = s.d.mem ∧ t.d.cells = s.d.cells ∧ t.z = s.z ∧ t.pending = s.pending) ∧
    (s.d.bit F.MEM_SCRUB_EN = true → s.d.get (F.MEM_STACK_STATE_STATE st) = codeON → s.d.missing (st.val / 12) S ≠ some (st.val % 12) → s.d.unitBad (st.val / 12) S (st.val % 12) = false →
      ∃ t, exec (.stackPatrolRead st S granule .clean other severe) s = .next t ∧
        t.d.get (F.MEM_STACK_CNT_SCRUBBED st) = (s.d.get (F.MEM_STACK_CNT_SCRUBBED st) + 1) % 2 ^ 64 ∧
        (severe = true → t.d.get (F.MEM_STACK_CNT_ONDIE st) = (s.d.get (F.MEM_STACK_CNT_ONDIE st) + 1) % 2 ^ 64) ∧ Keeps s t) ∧
    (s.d.powered = true → temp.toNat < s.d.get F.THM_LIMITS2_STACK_TRIP_C →
      ∃ t, exec (.stackTempRead st temp) s = .next t ∧ t.d.get (F.MEM_STACK_TEMP_TEMP_C st) = temp.toNat ∧
        (85 < temp.toNat → t.d.get (F.MEM_STACK_TEMP_REFRESH_2X st) = 1) ∧ (temp.toNat ≤ 83 → t.d.get (F.MEM_STACK_TEMP_REFRESH_2X st) = 0) ∧ Keeps s t))

/-- R400, R401, R404, R405: A slice of a macro: with slices on, a macro that is ready and a free spare, a start borrows the spare; the copy gives the spare both banks and
the Handover is due; the test passes to the copy back; and the copy back is due for the boundary. A slice of a bank of a scratchpad or pool borrows a free spare bank,
where slices of that array are on; a test that finds nothing passes to the copy back. Where the spec leaves a choice the model's stands: log entries 160, 162. -/
def Obligations.slices : Prop :=
  (∀ (s : State) (n : Fin 256) (sl : Slice),
    (∀ (m sp : Nat) rest, s.d.bit F.HLT_SLICE_CFG_EN = true → s.d.isOn (.proc 5) = true → tfind s.d.hlt.slices n = none → (s.d.hlt.coreMoves.any fun x => x.1 = n.val) = false →
      s.d.hlt.targeted = [n.val * 68 + m] → m < 68 → s.d.sliceReady n m = true → s.d.freeMacros n = sp :: rest →
      ∃ t, exec (.macroSliceStart n) s = .next t ∧ (tfind t.d.hlt.slices n).map (fun x => (x.macroIx, x.spare, x.phase, x.targeted)) = some (m, sp, 1, true) ∧
        t.d.get (F.CIM_MAP_BORROWED n sp) = 1 ∧ t.d.get (F.HLT_CORE_SLICE_PHASE n) = 1 ∧ t.d.hlt.targeted = [] ∧ Keeps s t) ∧
    (tfind s.d.hlt.slices n = some sl → sl.phase = 1 →
      ∃ t, exec (.sliceCopyDone n []) s = .next t ∧ (tfind t.d.hlt.slices n) = some { sl with phase := 2, due := true, lost := [] } ∧
        t.d.get (F.HLT_CORE_SLICE_PHASE n) = 2 ∧ t.d.mem = s.d.mem ∧ t.d.out = s.d.out ∧ t.z = s.z ∧ t.pending = s.pending ∧
        (sl.spare ≠ s.d.dutyMacro n sl.macroIx → sl.spare < 68 → s.d.dutyMacro n sl.macroIx < 68 → s.d.get (F.CORE_ID_PHYSICAL n) < 66 → ∀ b r, b < 2 → r < 512 →
          tget 0 t.d.cells (rowKey (n / 64) (s.d.get (F.CORE_ID_PHYSICAL n)) sl.spare b r) = s.d.row n sl.macroIx b r)) ∧
    (tfind s.d.hlt.slices n = some sl → sl.phase = 3 → sl.te = false →
      ∃ t, exec (.sliceTestDone n []) s = .next t ∧ (tfind t.d.hlt.slices n) = some { sl with phase := 4, due := false, restart := [], failed := false } ∧
        t.d.get (F.HLT_CORE_SLICE_PHASE n) = 4 ∧ Keeps s t) ∧
    (tfind s.d.hlt.slices n = some sl → sl.phase = 4 → sl.due = false → sl.restart = [] → (s.d.macroRun n sl.macroIx).write = none →
      ∃ t, exec (.sliceCopyBackDone n []) s = .next t ∧ (tfind t.d.hlt.slices n) = some { sl with due := true, lost := [] } ∧ t.d.mem = s.d.mem ∧
        t.d.regs = s.d.regs ∧ t.d.out = s.d.out ∧ t.z = s.z ∧ t.pending = s.pending)) ∧
  (∀ (s : State) (arr : BankArray) (bank : Fin 192) (spare : Fin 4) (sp : Nat) (rest : List Nat) (b : Borrow),
    let A := arrOf arr
    (A < 260 → s.d.bit (if A < 256 then F.HLT_SLICE_CFG_SP_EN else F.HLT_SLICE_CFG_DP_EN) = true → s.d.isOn (.proc 5) = true → bank.val < arrBanks A →
      s.d.bankBorrowed A bank = false → (s.d.pool.borrows.any fun p => p.1 / 4 = A && p.2.why = 0) = false → s.d.freeBanks A = sp :: rest →
      Gives s (exec (.bankSliceStart arr bank) s) (s.d.startBorrow A sp bank 0 0)) ∧
    (tfind s.d.pool.borrows (A * 4 + spare) = some b → b.phase = 1 → b.why = 0 →
      ∃ t, exec (.bankSliceTestDone arr spare none) s = .next t ∧ tfind t.d.pool.borrows (A * 4 + spare) = some { b with phase := 2, due := false } ∧ Keeps s t))

/-- R410, R411, R412: a known-sum check of a macro that is ON and idle compares the signature of its cells with the reference; where they agree nothing but the counts
changes, and a first difference is counted and remembered. A check of a macro that is not idle is skipped and counted. Where the spec leaves a choice the model's stands:
log entry 161. -/
def Obligations.known_sum_check : Prop :=
  ∀ (s : State) (n : Fin 256) (m : Fin 64) (odd : Fin 2) (found : Option (BitVec 32)), s.d.ksDue n m = true → s.d.macroOn n m = true →
    let bank := s.d.activeBank n m
    let expect := s.d.get (if odd.val = 0 then ksEven n m bank else ksOdd n m bank)
    let got := (found.map (·.toNat)).getD (ksObserved s.d n m bank odd)
    let key := (n.val * 68 + m.val) * 2 + odd.val
    Gives s (exec (.knownSumCheck n m odd false found) s) (s.d.bump F.HLT_CNT_KS_SKIPPED 1) ∧
    (got = expect → s.d.hlt.ksRepeat.contains key = false →
      ∃ t, exec (.knownSumCheck n m odd true found) s = .next t ∧ t.d.get F.HLT_CNT_KS_CHECKS = (s.d.get F.HLT_CNT_KS_CHECKS + 1) % 2 ^ 64 ∧
        RegsFrom s { s.d with hlt := t.d.hlt } t [F.HLT_CNT_KS_CHECKS]) ∧
    (got ≠ expect → s.d.hlt.ksRepeat.contains key = false →
      ∃ t, exec (.knownSumCheck n m odd true found) s = .next t ∧ t.d.get F.HLT_CNT_KS_CHECKS = (s.d.get F.HLT_CNT_KS_CHECKS + 1) % 2 ^ 64 ∧
        t.d.get F.HLT_CNT_KS_MISMATCH = (s.d.get F.HLT_CNT_KS_MISMATCH + 1) % 2 ^ 64 ∧ t.d.hlt.ksRepeat = key :: s.d.hlt.ksRepeat ∧
        RegsFrom s { s.d with hlt := t.d.hlt } t [F.HLT_CNT_KS_CHECKS, F.HLT_CNT_KS_MISMATCH])

/-- R415: the test engine takes a command in the life-cycle states that open it, shows it and is busy with it until it ends; in the other states it refuses the command.
Where the spec leaves a choice the model's stands: log entry 106. -/
def Obligations.test_engine : Prop :=
  ∀ (s : State) (factory : Bool) (cmd : BitVec 64),
    let start := fun (target : Nat) => s.d.teOpen factory = true ∧ s.d.bit F.HLT_TE_STATUS_BUSY = false ∧ bitsAt cmd.toNat 0 4 = target ∧ bitsAt cmd.toNat 24 4 ≤ 5
    let busy := fun (t : State) => t.d.get F.HLT_TE_STATUS_BUSY = 1 ∧ t.d.get F.HLT_TE_STATUS_DONE = 0 ∧ t.d.get F.HLT_TE_CMD_TARGET = bitsAt cmd.toNat 0 4 ∧
      t.d.hlt.te = some cmd.toNat ∧ t.d.cells = s.d.cells ∧ t.d.out = s.d.out ∧ t.z = s.z ∧ t.pending = s.pending
    let refusal := fun (o : Host.Outcome State Fault Refusal) => Gives s o (s.d.put F.HLT_TE_STATUS_REFUSED 1)
    (start 1 → ∃ t, exec (.teMacroBank factory cmd) s = .next t ∧ busy t ∧ t.d.mem = s.d.mem) ∧
    (start 2 → ∃ t, exec (.teScratchpadBank factory cmd) s = .next t ∧ busy t) ∧
    (start 3 → ∃ t, exec (.teDiePoolBank factory cmd) s = .next t ∧ busy t) ∧
    (start 4 → s.d.wallState (bitsAt cmd.toNat 8 7 / 12) = 0 → ∃ t, exec (.teStackUnits factory cmd) s = .next t ∧ busy t) ∧
    (start 5 → ∃ t, exec (.teLevel0Command factory cmd) s = .next t ∧ busy t) ∧
    (s.d.teOpen factory = false → refusal (exec (.teMacroBank factory cmd) s) ∧ refusal (exec (.teScratchpadBank factory cmd) s) ∧
      refusal (exec (.teDiePoolBank factory cmd) s) ∧ refusal (exec (.teStackUnits factory cmd) s) ∧ refusal (exec (.teLevel0Command factory cmd) s)) ∧
    (∀ c, s.d.hlt.te = some c → s.d.teWaits = false → ∃ t, exec (.teCommandEnd []) s = .next t ∧ t.d.get F.HLT_TE_STATUS_BUSY = 0 ∧
      t.d.get F.HLT_TE_STATUS_DONE = 1 ∧ t.d.get F.HLT_TE_STATUS_FAIL = 0 ∧ t.d.get F.HLT_TE_STATUS_FAILS = 0 ∧ t.d.get F.HLT_EVENT_TE_DONE = 1 ∧
      t.d.hlt.te = none ∧ t.d.mem = s.d.mem ∧ t.d.cells = s.d.cells ∧ t.z = s.z ∧ t.pending = s.pending)

/-! ### The fabric, time and courses -/

/-- R239, R240, R242, R249, R262: the link of a port that is ON goes down and comes up, and is counted; a frame that the port does not take is counted once, and one of a
reserved Dyosh type is received and then refused; an Announce makes the port of the better vector the slave, a peer-delay exchange is shown; IDLE_LEN is kept within 4 to
256. Where the spec leaves a choice the model's stands: log entries 173, 243. -/
def Obligations.fabric_ports : Prop :=
  ∀ (s : State) (p : Fin 2) (fr : EthFrame) (fs : AsFrames) (q : Requester) (v : BitVec 32),
    (s.d.portUp p = true → ∃ t, exec (.portLinkDown p) s = .next t ∧ t.d.portUp p = false ∧
      t.d.get (F.FAB_PORT_CNT_RETRAIN p) = (s.d.get (F.FAB_PORT_CNT_RETRAIN p) + 1) % 2 ^ 64 ∧
      RegsFrom s { s.d with fab := { s.d.fab with announce := terase s.d.fab.announce p } } t [F.FAB_PORT_LINK_LINK_UP p, F.FAB_PORT_LINK_FEC_LOCK p,
        F.FAB_PORT_LINK_LANE_OK p, F.FAB_PORT_PTP_SYNC_OK p, F.FAB_PORT_PTP_AS_CAPABLE p, F.FAB_PORT_CNT_RETRAIN p]) ∧
    (s.d.portOn p = true → s.d.portUp p = false → ∃ t, exec (.portLinkUp p) s = .next t ∧ t.d.portUp p = true ∧
      OnlyRegs s t [F.FAB_PORT_LINK_LINK_UP p, F.FAB_PORT_LINK_FEC_LOCK p, F.FAB_PORT_LINK_LANE_OK p]) ∧
    (s.d.portUp p = true → 9216 < frSize fr → Gives s (exec (.ethernetFrameDropped p fr) s) ((s.d.countFec p fr).bump (F.FAB_PORT_CNT_OVERSIZE p) 1)) ∧
    (s.d.portUp p = true → frSize fr ≤ 9216 → isDyosh s.z s.d p fr = false → ¬ (fr.etherType = 0x88F7 ∧ fr.fcsOk = true) →
      ∃ t, exec (.ethernetFrameDropped p fr) s = .next t ∧ t.d.get (F.FAB_PORT_CNT_DROPPED p) = (s.d.get (F.FAB_PORT_CNT_DROPPED p) + 1) % 2 ^ 64 ∧
        OnlyRegs s t ([F.FAB_PORT_CNT_DROPPED p, F.FAB_PORT_CNT_FEC_CORR p, F.FAB_PORT_CNT_FEC_UNCORR p] ++ if fr.fcsOk then [] else [F.FAB_PORT_CNT_FCS_ERR p])) ∧
    (s.d.portUp p = true → frSize fr ≤ 9216 → isDyosh s.z s.d p fr = true → 3 < frHdr fr 0 4 4 →
      ∃ t, exec (.ethernetFrameDropped p fr) s = .next t ∧ t.d.get (F.FAB_PORT_CNT_RX_FRAMES p) = (s.d.get (F.FAB_PORT_CNT_RX_FRAMES p) + 1) % 2 ^ 64 ∧
        (frPcrcOk fr = true → t.d.get (F.FAB_PORT_CNT_DROPPED p) = (s.d.get (F.FAB_PORT_CNT_DROPPED p) + 1) % 2 ^ 64) ∧
        (frPcrcOk fr = false → t.d.get (F.FAB_PORT_CNT_PCRC_ERR p) = (s.d.get (F.FAB_PORT_CNT_PCRC_ERR p) + 1) % 2 ^ 64) ∧
        OnlyRegs s t ([F.FAB_PORT_CNT_RX_FRAMES p, F.FAB_PORT_CNT_RX_BYTES p, F.FAB_PORT_CNT_FEC_CORR p, F.FAB_PORT_CNT_FEC_UNCORR p] ++
          if frPcrcOk fr then [F.FAB_PORT_CNT_DROPPED p] else [F.FAB_PORT_CNT_PCRC_ERR p])) ∧
    (∀ x other, s.d.portUp p = true → fs.dom.toNat = s.z.get F.FAB_PTP_CFG_DOMAIN → tfind s.d.fab.announce (1 - p) = some other → x.toNat < other →
      ∃ t, exec (.gptpMessage p fs (.announce x)) s = .next t ∧
        t.d.get (F.FAB_PORT_CNT_RX_FRAMES p) = (s.d.get (F.FAB_PORT_CNT_RX_FRAMES p) + fs.got.length) % 2 ^ 64 ∧ t.d.get F.FAB_TIME_STATUS_SLAVE_PORT = p.val ∧ t.d.get (F.FAB_PORT_PTP_ROLE p) = 1 ∧
        t.d.get (F.FAB_PORT_PTP_ROLE (1 - p)) = 2 ∧ Keeps s t) ∧
    (∀ ns capable, s.d.portUp p = true → fs.dom.toNat = s.z.get F.FAB_PTP_CFG_DOMAIN →
      Gives s (exec (.gptpMessage p fs (.peerDelay ns capable)) s) ((s.d.countFrames p fs).puts [(F.FAB_PORT_PTP_LINK_DELAY_NS p, ns.toNat), (F.FAB_PORT_PTP_AS_CAPABLE p, b01 capable)])) ∧
    (Reaches s q → ∃ t, exec (.idleLenWrite q v) s = .next t ∧ t.d.get F.CRS_IDLE_LEN_IDLE_LEN = max 4 (min 256 (v.toNat % 512)) ∧
      OnlyRegs s t [F.CRS_IDLE_LEN_IDLE_LEN])

/-- R243, R244, R245: fabric time never runs backward; the first Sync of a free-running time unit starts locking, the first lock sets fabric time to the grandmaster's; a
timeout of Sync in LOCKED begins holdover, in which an error beyond LIMIT_NS makes time LOST; an edge of PPS is measured and its absence noted; the slave role moves to a
port whose Sync is good. Where the spec leaves a choice the model's stands: log entries 170, 172. -/
def Obligations.fabric_time : Prop :=
  (∀ (d : Dev) (ns : Nat), d.fab.slewFrac < 1000000 → d.time + 2 * ns < 2 ^ 64 → d.time ≤ (d.elapse ns).time ∧ (d.elapse ns).now = d.now + ns) ∧
  ∀ (s : State) (p : Fin 2) (fs : AsFrames) (gm : BitVec 64) (err : BitVec 16) (ns : Nat),
    let d := s.d.elapse ns
    let frame := fun (t : State) => t.d.mem = s.d.mem ∧ t.d.cells = s.d.cells ∧ t.d.out = s.d.out ∧ t.d.now = s.d.now + ns ∧ t.z = s.z ∧ t.pending = s.pending
    (s.d.portUp p = true → fs.dom.toNat = s.z.get F.FAB_PTP_CFG_DOMAIN → s.d.procOn 3 = true →
      (s.d.timeState = timeFree → ∃ t, exec (.syncReceived p ns fs gm err false) s = .next t ∧ t.d.timeState = timeLocking ∧ t.d.get (F.FAB_PORT_PTP_SYNC_OK p) = 1 ∧
        t.d.get (F.FAB_PORT_CNT_RX_FRAMES p) = (s.d.get (F.FAB_PORT_CNT_RX_FRAMES p) + fs.got.length) % 2 ^ 64 ∧ frame t) ∧
      (s.d.timeState = timeLocking → s.d.get F.FAB_TIME_STATUS_SLAVE_PORT = p.val → s.d.fab.stepped = false →
        ∃ t, exec (.syncReceived p ns fs gm err true) s = .next t ∧ t.d.timeState = timeLocked ∧ t.d.time = gm.toNat ∧
          t.d.get F.FAB_TIME_STATUS_TIME_ERR_NS = err.toNat ∧ t.d.fab.stepped = true ∧ frame t) ∧
      (s.d.timeState = timeLocked → s.d.get F.FAB_TIME_STATUS_SLAVE_PORT = p.val →
        ∃ t, exec (.syncReceived p ns fs gm err true) s = .next t ∧ t.d.timeState = timeLocked ∧ t.d.time = d.time ∧ t.d.fab.slew = (gm.toNat : Int) - d.time ∧ frame t)) ∧
    (s.d.timeState = timeLocked → s.d.bit F.FAB_PTP_CFG_PPS_EN = false →
      ∃ t, exec (.syncTimeout ns) s = .next t ∧ t.d.timeState = timeHoldover ∧ t.d.fab.holdNs = 0 ∧ t.d.get (F.FAB_PORT_PTP_SYNC_OK p) = 0 ∧ frame t) ∧
    (s.d.timeState = timeLocked → s.d.bit F.FAB_PTP_CFG_PPS_EN = true → s.d.bit F.FAB_TIME_STATUS_PPS_SEEN = true →
      ∃ t, exec (.syncTimeout ns) s = .next t ∧ t.d.timeState = timeHoldoverPps ∧ t.d.get F.FAB_TIME_STATUS_TIME_ERR_NS = 50 ∧ frame t) ∧
    (s.d.timeState = timeHoldover → max 1 (s.d.get F.FAB_TIME_LIMIT_LIMIT_NS) < d.get F.FAB_TIME_STATUS_TIME_ERR_NS →
      ∃ t, exec (.timeLost ns) s = .next t ∧ t.d.timeState = timeLost ∧ t.d.time = d.time ∧ frame t) ∧
    (∃ t, exec (.ppsEdge ns) s = .next t ∧ t.d.get F.FAB_PPS_OFFSET_OFFSET_NS = ofSigned 32 (ppsOffset d.time) ∧ t.d.get F.FAB_TIME_STATUS_PPS_SEEN = 1 ∧
      (s.d.timeState = timeHoldover → s.d.bit F.FAB_PTP_CFG_PPS_EN = true → t.d.timeState = timeHoldoverPps ∧ t.d.fab.slew = -ppsOffset d.time) ∧
      t.d.time = d.time ∧ frame t) ∧
    (∃ t, exec (.ppsAbsent ns) s = .next t ∧ t.d.get F.FAB_TIME_STATUS_PPS_SEEN = 0 ∧ (s.d.timeState = timeHoldoverPps → t.d.timeState = timeHoldover) ∧ frame t) ∧
    (s.d.get F.FAB_TIME_STATUS_SLAVE_PORT = p.val → s.d.portUp (1 - p) = true → s.d.bit (F.FAB_PORT_PTP_SYNC_OK (1 - p)) = true →
      ∃ t, exec .slavePortMove s = .next t ∧ t.d.get F.FAB_TIME_STATUS_SLAVE_PORT = 1 - p.val ∧ t.d.get F.FAB_CNT_SLAVE_MOVES = (s.d.get F.FAB_CNT_SLAVE_MOVES + 1) % 2 ^ 64 ∧ Keeps s t)

/-- R248, R251, R290: at the boundary of an idle module with nothing due the next course begins at its instant of fabric time and is counted, and a COURSE_WAIT armed for
it completes with OK. Where the spec leaves a choice the model's stands: log entry 183. -/
def Obligations.course_boundary : Prop :=
  ∀ (s : State) (fl : Nat) (f : Flight), s.d.joined = false → s.d.crs.join = none → s.d.crs.active = none → s.d.crs.suspendDue = none →
    s.d.get F.CRS_IDLE_LEN_IDLE_LEN = s.d.get F.CRS_LEN_LEN → 0 < s.d.get F.CRS_LEN_LEN → s.d.hlt.slices = [] → s.d.hlt.coreMoves = [] → s.d.pool.borrows = [] → s.d.pool.faults = [] →
    s.d.get F.CRS_ANCHOR_COURSE ≤ s.d.course → s.d.course + 1 < 2 ^ 64 → s.d.get F.CRS_ANCHOR_TIME + (s.d.course + 1 - s.d.get F.CRS_ANCHOR_COURSE) * (256 * s.d.get F.CRS_LEN_LEN) < 2 ^ 64 →
    s.d.time ≤ s.d.boundaryOf (s.d.course + 1) →
    ((s.d.host.flights = [] ∨ (s.d.host.flights = [(fl, f)] ∧ f.armed = some (s.d.course + 1) ∧ f.ready = false ∧ descOp f.desc = 0x09)) →
      ∃ t, exec .courseBoundary s = .next t ∧ t.d.course = s.d.course + 1 ∧ t.d.time = s.d.boundaryOf (s.d.course + 1) ∧
        t.d.get F.CRS_CNT_COURSES = (s.d.get F.CRS_CNT_COURSES + 1) % 2 ^ 64 ∧ t.d.mem = s.d.mem ∧ t.d.out = s.d.out ∧ t.z = s.z ∧ t.pending = s.pending ∧
        (s.d.host.flights = [(fl, f)] → ∃ g, t.d.flight fl = some g ∧ g.ready = true ∧ g.status = f.status))

/-- R263, R264, R268, R270, R271: a slot that is due and whose data can be sent is sent on its port at its offset; one that cannot is late; an acknowledgement in time
ends it, a refusal or a missed deadline sends it to repair, and one that fails again has failed for good. Where the spec leaves a choice the model's stands: log entries
186, 188, 192, 271. -/
def Obligations.slots_are_sent : Prop :=
  ∀ (s : State) (slot course : Nat) (r : SendRun), s.d.findSend slot course = some r → slot < 2 ^ 12 → course < 2 ^ 64 →
    let start := s.d.courseAt (seOffset r.entry)
    let deadline := start + slotNs (seLength r.entry) + plAckNs s.d.plan
    let phaseOf := fun (t : State) => (t.d.findSend slot course).map (·.phase)
    let d := s.d.reach start
    (course = s.d.course → r.phase = .due → s.d.jobFailed = true → Gives s (exec (.slotSend slot) s) s.d) ∧
    (course = s.d.course → r.phase = .due → s.d.jobFailed = false → d.slotReady s.z r = true →
      Gives s (exec (.slotSend slot) s)
        (((d.sendSegments s.z r false).bump F.CRS_CNT_SLOTS_SENT 1).modSend slot course fun x => { x with phase := .sent, deadline := deadline })) ∧
    (course = s.d.course → r.phase = .due → s.d.jobFailed = false → d.slotReady s.z r = false →
      ∃ t, exec (.slotSend slot) s = .next t ∧ phaseOf t = some .failed ∧ t.d.get F.CRS_CNT_SLOT_LATE = (s.d.get F.CRS_CNT_SLOT_LATE + 1) % 2 ^ 64 ∧
        t.d.out = s.d.out ∧ t.d.mem = s.d.mem ∧ t.z = s.z ∧ t.pending = s.pending) ∧
    (r.phase = .sent → ∃ t, exec (.ackDeadline course slot) s = .next t ∧ phaseOf t = some .failed ∧ t.d.out = s.d.out ∧ t.d.mem = s.d.mem ∧ t.z = s.z ∧ t.pending = s.pending) ∧
    (r.phase = .resent → ∃ t, exec (.ackDeadline course slot) s = .next t ∧ phaseOf t = some .lasting ∧
      t.d.get F.CRS_CNT_SLOT_LASTING = (s.d.get F.CRS_CNT_SLOT_LASTING + 1) % 2 ^ 64 ∧ t.d.crs.detected = true ∧ t.d.out = s.d.out ∧ t.d.mem = s.d.mem ∧ t.z = s.z ∧
      t.pending = s.pending) ∧
    (∀ (p : Fin 2) (fr : EthFrame) (ns : Nat),
      let e := s.d.elapse ns
      s.d.portUp p = true → frSize fr ≤ 9216 → isDyosh s.z s.d p fr = true → frHdr fr 0 4 4 = 1 → frPcrcOk fr = true → frHeaderOk fr = true → s.d.frMine fr = true →
      frHdr fr 16 0 12 = slot → frHdr fr 8 0 64 = course → sePeer r.entry = frHdr fr 4 0 10 → fr.data.length = 48 → frPay fr 1 0 8 = 0 → frPay fr 4 0 96 = 0 →
      (r.phase = .resent → frHdr fr 1 0 1 = 1 → frPay fr 0 0 8 = 0 → e.time ≤ r.deadline → ∃ t, exec (.ackFrame p fr ns) s = .next t ∧ phaseOf t = some .acked ∧
        t.d.get F.CRS_CNT_SLOT_TRANSIENT = (s.d.get F.CRS_CNT_SLOT_TRANSIENT + 1) % 2 ^ 64 ∧ t.d.out = s.d.out ∧ t.d.mem = s.d.mem ∧ t.z = s.z ∧ t.pending = s.pending) ∧
      (r.phase = .sent → frHdr fr 1 0 1 = 0 → frPay fr 0 0 8 = 0 → e.time ≤ r.deadline → ∃ t, exec (.ackFrame p fr ns) s = .next t ∧ phaseOf t = some .acked ∧ t.d.out = s.d.out ∧ t.d.mem = s.d.mem ∧
        t.d.get (F.FAB_PORT_CNT_RX_FRAMES p) = (s.d.get (F.FAB_PORT_CNT_RX_FRAMES p) + 1) % 2 ^ 64 ∧ t.z = s.z ∧ t.pending = s.pending) ∧
      (r.phase = .sent → frHdr fr 1 0 1 = 0 → 1 ≤ frPay fr 0 0 8 → frPay fr 0 0 8 ≤ 3 → ∃ t, exec (.ackFrame p fr ns) s = .next t ∧ phaseOf t = some .failed ∧ t.d.out = s.d.out ∧ t.d.mem = s.d.mem ∧
        t.z = s.z ∧ t.pending = s.pending)) ∧
    (∀ (p : Fin 2), s.d.crs.sends = [r] → r.phase = .failed → r.course + 1 = s.d.course → sePort r.entry = p.val → s.d.joined = true → s.d.suspended = false →
      s.d.jobFailed = false →
      let at_ := s.d.courseAt (plRepairOff s.d.plan p)
      let fits := slotNs (seLength r.entry) ≤ plRepairNs s.d.plan p
      (s.d.portUp p = true → fits → (s.d.reach at_).slotReady s.z r = true →
        ∃ t, exec (.repairSlot p) s = .next t ∧ phaseOf t = some .resent ∧ t.d.out = (((s.d.reach at_).reach at_).sendSegments s.z r true).out ∧ t.z = s.z ∧ t.pending = s.pending) ∧
      (s.d.portUp p = true → ¬ fits → ∃ t, exec (.repairSlot p) s = .next t ∧ phaseOf t = some .lasting ∧
        t.d.get F.CRS_CNT_REPAIR_FULL = (s.d.get F.CRS_CNT_REPAIR_FULL + 1) % 2 ^ 64 ∧ t.d.out = s.d.out ∧ t.d.mem = s.d.mem ∧ t.z = s.z ∧ t.pending = s.pending))

/-- R269, R271: a slot of one frame that arrives whole is stored, acknowledged with OK and done; one whose PCRC fails is refused at once; one that is still incomplete
when its sender's repair is over has failed for good. Where the spec leaves a choice the model's stands: log entries 188, 243, 271. -/
def Obligations.slots_are_received : Prop :=
  (∀ (s : State) (ix : Fin 4096) (x : RecvRun), s.d.joined = true →
    (s.d.crs.recvs.find? fun r => r.ix = ix.val && r.course + 1 = s.d.course && !r.done && !r.lasting) = some x →
    ∃ t, exec (.receiveDeadline ix) s = .next t ∧ t.d.get F.CRS_CNT_SLOT_LASTING = (s.d.get F.CRS_CNT_SLOT_LASTING + 1) % 2 ^ 64 ∧ t.d.crs.detected = true ∧
      t.d.mem = s.d.mem ∧ t.d.out = s.d.out ∧ t.z = s.z ∧ t.pending = s.pending) ∧
  ∀ (s : State) (p : Fin 2) (fr : EthFrame) (ns : Nat) (r : RecvRun),
    let e := s.d.elapse ns
    let counted := (e.countFec p fr).countRx p [frSize fr]
    s.d.portUp p = true → frSize fr ≤ 9216 → isDyosh s.z s.d p fr = true → frHdr fr 0 4 4 = 0 → counted.findRecv fr = some r → r.done = false → frHdr fr 1 0 1 = 0 →
    (frPcrcOk fr = true → frHeaderOk fr = true → frHdr fr 1 1 1 = 1 → frHdr fr 18 0 10 = 0 → r.got = [] → r.bytes = 0 → r.last = none → r.badSeg = false → (fr.data.drop 32).length = seLength r.entry →
      rangeStatus s.z s.d (some (enPart (s.d.entry s.d.crs.joinCtx))) (seAddr r.entry) (seLength r.entry) = none → s.d.crs.ops = [] →
      let stored := counted.store none (seAddr r.entry) (fr.data.drop 32)
      ∃ t, exec (.dataFrame p fr ns) s = .next t ∧ t.d.mem = stored.mem ∧
        t.d.out = (stored.sendAck s.z p fr { r with got := [0], bytes := seLength r.entry, last := some 0 } 0).out ∧
        t.d.get F.CRS_CNT_SLOTS_RECEIVED = (s.d.get F.CRS_CNT_SLOTS_RECEIVED + 1) % 2 ^ 64 ∧ (t.d.crs.recvs.any fun x => x.ix = r.ix && x.course = r.course && x.done) = true ∧
        t.z = s.z ∧ t.pending = s.pending) ∧
    (frPcrcOk fr = false → ∃ t, exec (.dataFrame p fr ns) s = .next t ∧ t.d.mem = s.d.mem ∧
      t.d.get (F.FAB_PORT_CNT_PCRC_ERR p) = (s.d.get (F.FAB_PORT_CNT_PCRC_ERR p) + 1) % 2 ^ 64 ∧ t.d.out.length = s.d.out.length + 1 ∧
      (t.d.crs.recvs.any fun x => x.ix = r.ix && x.course = r.course && x.badSeg) = true ∧ t.z = s.z ∧ t.pending = s.pending)

/-- R265, R273, R274, R275, R277, R278: a joined module sends its status word once in a course, with its slack and requested length shown; the keystone takes the word of
a module, and has a fault of one that has been silent for MISS_LIMIT courses in its next word; the keystone sends its word; a member takes it; the successor takes over
when it has missed words for TAKEOVER courses. Where the spec leaves a choice the model's stands: log entries 189, 273. -/
def Obligations.status_and_keystone_words : Prop :=
  ∀ (s : State) (pl : Nat), s.d.joined = true → s.d.crs.active = some pl →
    (s.d.crs.statusSent ≠ some s.d.course → s.d.hlt.alarmJob = false →
      let d := s.d.reach (s.d.courseAt (plStatusOff pl))
      ∃ t, exec .statusWordSend s = .next t ∧ t.d.crs.statusSent = some s.d.course ∧ t.d.get F.CRS_SLACK_SLACK_NS = ofSigned 32 d.slack ∧
        t.d.get F.CRS_GUARD_REQ_LEN = reqLen (256 * s.d.crs.prevLen) (plGuard pl) (plBase pl) d.slack % 2 ^ 9 ∧ t.d.crs.lasting = none ∧
        t.d.out.length = s.d.out.length + (List.filter (fun p => s.d.portUp p) [0, 1]).length ∧ t.d.mem = s.d.mem ∧ t.z = s.z ∧ t.pending = s.pending) ∧
    (s.d.crs.statusSent = some s.d.course → Gives s (exec .statusWordSend s) s.d) ∧
    (∀ (p : Fin 2) (fr : EthFrame) (ns : Nat), s.d.portUp p = true → frSize fr ≤ 9216 → isDyosh s.z s.d p fr = true → frPcrcOk fr = true → frHeaderOk fr = true → s.d.frMine fr = true →
      (frHdr fr 0 4 4 = 2 → frHdr fr 4 0 10 < plModules pl → frHdr fr 4 0 10 ≠ s.d.ownModule → statusOk fr = true → s.d.role ≠ roleMember →
        (s.d.report (frHdr fr 4 0 10)).course ≠ s.d.course →
        ∃ t, exec (.statusFrame p fr ns) s = .next t ∧ (t.d.report (frHdr fr 4 0 10)).course = s.d.course ∧
          (t.d.report (frHdr fr 4 0 10)).req = fld (leNat (fr.data.drop 32)) 4 0 9 ∧ (t.d.report (frHdr fr 4 0 10)).ckpt = fld (leNat (fr.data.drop 32)) 8 0 64 ∧
          t.d.mem = s.d.mem ∧ t.d.out = s.d.out ∧ t.z = s.z ∧ t.pending = s.pending) ∧
      (frHdr fr 0 4 4 = 3 → wordOk fr = true → s.d.role = roleMember → s.d.crs.acting = none → fld (leNat (fr.data.drop 32)) 18 1 1 = 0 →
        frHdr fr 4 0 10 = plKeystone pl → s.d.crs.wordIn = false → fld (leNat (fr.data.drop 32)) 18 2 3 = 0 →
        ∃ t, exec (.keystoneFrame p fr ns) s = .next t ∧ t.d.crs.wordIn = true ∧ t.d.get F.CRS_PACE_PENDING = fld (leNat (fr.data.drop 32)) 18 0 1 ∧
          t.d.get F.CRS_CKPT_COMMITTED = fld (leNat (fr.data.drop 32)) 32 0 64 ∧ t.d.mem = s.d.mem ∧ t.d.out = s.d.out ∧ t.z = s.z ∧ t.pending = s.pending) ∧
      (frHdr fr 0 4 4 = 3 → wordOk fr = true → s.d.role = roleMember → s.d.crs.acting = none → fld (leNat (fr.data.drop 32)) 18 1 1 = 1 →
        frHdr fr 4 0 10 = plSuccessor pl → s.d.crs.wordIn = false →
        ∃ t, exec (.keystoneFrame p fr ns) s = .next t ∧ t.d.crs.wordIn = true ∧ t.d.crs.acting = some (plSuccessor pl) ∧
          t.d.get F.CRS_CKPT_COMMITTED = fld (leNat (fr.data.drop 32)) 32 0 64 ∧ t.d.mem = s.d.mem ∧ t.z = s.z ∧ t.pending = s.pending)) ∧
    (∀ (m : Fin 1024), s.d.role ≠ roleMember → m.val < plModules pl → (s.d.report m).left s.d.course = false → plMiss pl ≤ (s.d.report m).missed →
      s.d.crs.lostModules.contains m.val = false → s.d.suspended = false → s.d.crs.suspends = none → s.d.crs.fault = none →
      ∃ t, exec (.statusMissLimit m) s = .next t ∧ t.d.crs.suspends = some m.val ∧ t.d.crs.fault = none ∧ t.d.crs.lostModules = m.val :: s.d.crs.lostModules ∧
        RegsFrom s { s.d with crs := t.d.crs } t []) ∧
    (s.d.role = roleKeystone ∨ s.d.role = roleActing → s.d.crs.wordSent ≠ some s.d.course → s.d.suspended = false →
      ∃ t, exec .keystoneWordSend s = .next t ∧ t.d.crs.wordSent = some s.d.course ∧
        (∀ x, s.d.crs.suspends = some x → s.d.crs.suspendDue = none → t.d.crs.suspendDue = some x) ∧
        t.d.out.length = s.d.out.length + (List.filter (fun p => s.d.portUp p) [0, 1]).length ∧ t.d.mem = s.d.mem ∧ t.z = s.z ∧ t.pending = s.pending) ∧
    (s.d.role = roleSuccessor → plTakeover pl ≤ s.d.crs.missedWords → s.d.jobFailed = false → s.d.suspended = false →
      ∃ t, exec .keystoneTakeover s = .next t ∧ t.d.role = roleActing ∧ t.d.crs.suspends = some (plKeystone pl) ∧ t.d.crs.acting = some s.d.ownModule ∧ t.d.mem = s.d.mem ∧ t.z = s.z ∧ t.pending = s.pending)

/-! ### Power, boot, life cycle and the module -/

/-- R370, R371, R373, R375, R381, R389, R391: a cap of the physical function from 300 W to the fused ceiling is taken and any other refused; a REQ_OP is kept; the end of
a ramp switches the die to its target; the duty of every die falls by a step, not below 2, in a period above the cap; a droop stretches the clock and is counted, until it
recovers; a power window adds its energy to the module's. Where the spec leaves a choice the model's stands: log entries 200, 201, 205. -/
def Obligations.power_management : Prop :=
  ∀ (s : State) (q : Requester) (v : BitVec 32) (die : Fin 4),
    (s.d.barOpen (.fn 0) = true → s.d.capOk (v.toNat % 2 ^ 11) = true → ∃ t, exec (.capWrite (.fn 0) v) s = .next t ∧ t.d.get F.PWR_CAP_CAP_W = v.toNat % 2 ^ 11 ∧
      (s.d.governed = true → t.d.cap = min (v.toNat % 2 ^ 11) (s.d.get F.PWR_CAP_SIDEBAND_CAP_W)) ∧
      OnlyRegs s t [F.PWR_CAP_CAP_W, F.PWR_CAP_EFFECTIVE_CAP_W, F.PWR_CAP_EFFECTIVE_TOL_W]) ∧
    (s.d.barOpen (.fn 0) = true → s.d.capOk (v.toNat % 2 ^ 11) = false → Gives s (exec (.capWrite (.fn 0) v) s) (s.d.put F.PWR_STATUS_CAP_REFUSED 1)) ∧
    (Reaches s q → ∃ t, exec (.reqOpWrite q die v) s = .next t ∧ t.d.get (F.PWR_DIE_REQ_REQ_OP die) = v.toNat % 2 ^ 3 ∧ Keeps s t) ∧
    (s.d.powered = true → s.d.bit (F.PWR_DIE_OP_TRANSITION die) = true → s.d.governed = false → tget 0 s.d.pwr.target die < 8 →
      ∃ t, exec (.opRampDone die) s = .next t ∧ t.d.get (F.PWR_DIE_OP_OP die) = tget 0 s.d.pwr.target die ∧ t.d.bit (F.PWR_DIE_OP_TRANSITION die) = false ∧ Keeps s t) ∧
    (∀ mean, s.d.powered = true → ∃ t, exec (.dutyPeriodEnd mean []) s = .next t ∧ Keeps s t ∧
      (1000 * s.d.cap < mean → t.d.get (F.PWR_DIE_OP_DUTY die) = max 2 (s.d.get (F.PWR_DIE_OP_DUTY die) - 1) % 2 ^ 5)) ∧
    (s.d.powered = true → s.d.pwr.stretched.contains die.val = false →
      ∃ t, exec (.droopTrip die) s = .next t ∧ t.d.pwr.stretched = s.d.pwr.stretched ++ [die.val] ∧
        t.d.get (F.PWR_DIE_CNT_DROOP die) = (s.d.get (F.PWR_DIE_CNT_DROOP die) + 1) % 2 ^ 64 ∧ RegsFrom s { s.d with pwr := t.d.pwr } t [F.PWR_DIE_CNT_DROOP die]) ∧
    (∀ cycles, s.d.powered = true → s.d.pwr.stretched.contains die.val = true → 32 ≤ cycles →
      ∃ t, exec (.droopRecover die cycles) s = .next t ∧ t.d.pwr.stretched.contains die.val = false ∧
        t.d.get (F.PWR_DIE_CNT_STRETCH die) = (s.d.get (F.PWR_DIE_CNT_STRETCH die) + cycles) % 2 ^ 64 ∧ RegsFrom s { s.d with pwr := t.d.pwr } t [F.PWR_DIE_CNT_STRETCH die]) ∧
    (∀ eIn eIdle acts other stretch, s.d.powered = true → s.d.governed = false →
      ∃ t, exec (.powerWindowEnd eIn eIdle acts other stretch) s = .next t ∧
        t.d.get F.PWR_MODULE_ENERGY = (s.d.get F.PWR_MODULE_ENERGY + eIn) % 2 ^ 64 ∧ t.d.get F.PWR_STATUS_POWER_W = min 4095 (eIn / 1000) ∧ Keeps s t)

/-- R384 to R387: a read of the sensors shows the junction of a core, and a sensor at its trip limit on a second read trips the module: its rails are off; the thermal
loop lowers the point of a die whose throttle limit is reached. Where the spec leaves a choice the model's stands: log entry 203. -/
def Obligations.thermal_control : Prop :=
  ∀ (s : State) (n : Fin 256) (c : BitVec 8) (die : Fin 4), s.d.powered = true →
    let t1 : ThermalRead := ⟨[(n, c)], [], [], none⟩
    (c.toNat < s.d.get F.THM_LIMITS_TRIP_C → ∃ t, exec (.thermalSensorRead t1) s = .next t ∧ t.d.get (F.THM_CORE_TEMP_TEMP_C n) = c.toNat ∧ Keeps s t) ∧
    (s.d.get F.THM_LIMITS_TRIP_C ≤ c.toNat → s.d.pwr.hot.contains (256 + n.val) = true →
      ∃ t, exec (.thermalSensorRead t1) s = .next t ∧ t.d.aux.rails = .off ∧ t.d.aux.thermTrip = true ∧ t.d.get F.THM_TRIP_TRIPPED = 1 ∧
        t.d.get F.THM_TRIP_READING_C = c.toNat ∧ t.d.mem = [] ∧ t.pending = s.pending) ∧
    (s.d.governed = true → s.d.coreThrot ≤ maxOf (s.d.coreReadings die) → 0 < s.d.get (F.PWR_DIE_OP_THERM_OP die) →
      ∃ t, exec .thermalLoop s = .next t ∧ t.d.get (F.PWR_DIE_OP_THERM_OP die) = (s.d.get (F.PWR_DIE_OP_THERM_OP die) - 1) % 2 ^ 3 ∧ t.d.bit (F.THM_DIE_THROTTLING die) = true ∧ Keeps s t)

/-- R386: a core whose junction reading reaches CORE_HOLD_C is held with bit [10] of its state word and counted, and while it is held drives no vector; the hold is
released at CORE_HOLD_C − 5 °C; between the two the hold stays as it is. -/
def Obligations.hot_core_is_held : Prop :=
  ∀ (s : State) (n : Fin 256) (c : BitVec 8), s.d.powered = true → s.d.pwr.hot.contains (256 + n.val) = false →
    let limit := s.d.get F.THM_LIMITS_CORE_HOLD_C
    ∃ t, exec (.thermalSensorRead ⟨[(n, c)], [], [], none⟩) s = .next t ∧ Keeps s t ∧ t.d.get (F.THM_CORE_TEMP_TEMP_C n) = c.toNat ∧
      (s.d.bit (F.THM_CORE_TEMP_HELD n) = false → limit ≤ c.toNat → t.d.get (F.CORE_STATE_HELD n) = 1 ∧ bitsAt (t.d.get (F.CORE_STATE_HOLD_CAUSE n)) 2 1 = 1 ∧
        t.d.get (F.THM_CORE_TEMP_HELD n) = 1 ∧ t.d.get F.THM_CNT_HOLD = (s.d.get F.THM_CNT_HOLD + 1) % 2 ^ 64 ∧
        ∀ (m : Fin 64) (v : Fin 32), exec (.macroVector n m v) t = .next t) ∧
      (s.d.bit (F.THM_CORE_TEMP_HELD n) = true → c.toNat + 5 ≤ limit → t.d.get (F.THM_CORE_TEMP_HELD n) = 0 ∧ bitsAt (t.d.get (F.CORE_STATE_HOLD_CAUSE n)) 2 1 = 0 ∧
        t.d.get F.THM_CNT_HOLD = s.d.get F.THM_CNT_HOLD) ∧
      ((s.d.bit (F.THM_CORE_TEMP_HELD n) = true ∧ limit < c.toNat + 5) ∨ (s.d.bit (F.THM_CORE_TEMP_HELD n) = false ∧ c.toNat < limit) →
        t.d.get (F.THM_CORE_TEMP_HELD n) = s.d.get (F.THM_CORE_TEMP_HELD n) ∧ t.d.get (F.CORE_STATE_HOLD_CAUSE n) = s.d.get (F.CORE_STATE_HOLD_CAUSE n) ∧
        t.d.get F.THM_CNT_HOLD = s.d.get F.THM_CNT_HOLD)

/-- R292, R335, R336, R343, R344, R345: the stages of boot. PERST_N released with the rails good, a loader that verifies opens the mailbox; LOAD fetches an image, its
bytes are verified, and RELEASE starts the six processors; when they are ON, training starts; when every stack has settled, clearing; a mailbox command outside its stage
is WRONG_STAGE. Where the spec leaves a choice the model's stands: log entries 210, 211, 264. -/
def Obligations.boot_stages : Prop :=
  ∀ (s : State),
    (s.d.aux.perst = true → s.d.powered = true → s.d.lifeCycle ≠ 0 → s.d.lifeCycle ≠ 5 → s.d.flash.names .loader = true → s.d.verifyImage 1 s.d.flash.loader = 0 →
      ∃ t, exec (.perstDeassert true false) s = .next t ∧ t.d.stage = stageOPEN ∧ t.d.aux.perst = false ∧ t.d.aux.configOpen = true ∧ t.d.fw.loader = s.d.flash.loader ∧ Keeps s t) ∧
    (s.d.aux.perst = true → s.d.powered = true → s.d.lifeCycle ≠ 0 → s.d.lifeCycle ≠ 5 → ∃ t, exec (.perstDeassert false false) s = .next t ∧ t.d.stage = stageRECOVERY ∧ Keeps s t) ∧
    (s.d.pfWrites (.fn 0) = true → s.d.mboxTakes stageOPEN = true →
      let a := s.d.get F.FW_MBOX_IMAGE_ADDR_ADDR
      let n := s.d.get F.FW_MBOX_IMAGE_BYTES_BYTES
      ∃ t, exec (.load (.fn 0)) s = .next t ∧ t.d.stage = stageFETCHING ∧ t.d.bit F.FW_MBOX_STATUS_BUSY = true ∧ t.d.fw.fetch = some (a, n) ∧
        t.d.out = s.d.out ++ [.hostRead 0 a n] ∧ t.d.mem = s.d.mem ∧ t.z = s.z ∧ t.pending = s.pending) ∧
    (s.d.pfWrites (.fn 0) = true → s.d.mboxTakes stageOPEN = false → Gives s (exec (.load (.fn 0)) s) (s.d.put F.FW_MBOX_STATUS_RESULT resWrongStage)) ∧
    (s.d.pfWrites (.fn 0) = true → s.d.mboxTakes stageRECOVERY = true →
      ∃ t, exec (.loadLoader (.fn 0)) s = .next t ∧ t.d.stage = stageRECOVERY ∧ t.d.bit F.FW_MBOX_STATUS_BUSY = true ∧ t.d.fw.fetch.isSome = true) ∧
    (∀ a data, s.d.stage = stageFETCHING → s.d.fw.fetch = some (a, data.length) →
      ∃ t, exec (.imageFetchDone (some data)) s = .next t ∧ t.d.stage = stageVERIFYING ∧ t.d.fw.image = data ∧ t.d.fw.fetch = none ∧ Keeps s t) ∧
    (s.d.stage = stageVERIFYING → ∃ t, exec .imageVerifyDone s = .next t ∧ t.d.get F.FW_MBOX_STATUS_RESULT = s.d.verifyImage 2 s.d.fw.image ∧
      t.d.stage = (if s.d.verifyImage 2 s.d.fw.image = 0 then stageVERIFIED else stageOPEN) ∧ t.d.bit F.FW_MBOX_STATUS_BUSY = false ∧ Keeps s t) ∧
    (s.d.pfWrites (.fn 0) = true → s.d.mboxTakes stageVERIFIED = true → (∀ k : Fin 6, s.d.stateOf (.proc k) = codeOFF) →
      ∃ t, exec (.release (.fn 0)) s = .next t ∧ t.d.stage = stageSTARTING_FW ∧ t.d.fw.sampled = s.z.setup.rwl ∧
        t.z = { s.z with setup := { s.z.setup with layout := some s.z.layout } } ∧ (∀ k : Fin 6, t.d.stateOf (.proc k) = codeSTARTING) ∧ t.d.mem = s.d.mem ∧
        t.d.cells = s.d.cells ∧ t.d.out = s.d.out ∧ t.pending = s.pending) ∧
    (∀ sup, s.d.stage = stageSTARTING_FW → (∀ k : Fin 6, s.d.procOn k = true) →
      ∃ t, exec (.fwStartDone sup) s = .next t ∧ t.d.stage = stageTRAINING ∧ t.d.get F.FW_FEAT_SUP = sup.toNat % 64 ∧ Keeps s t) ∧
    (s.d.stage = stageTRAINING → (∀ i : Fin 24, s.d.get (F.MEM_STACK_STATE_STATE i) = codeON) →
      ∃ t, exec .trainingDone s = .next t ∧ t.d.stage = stageCLEARING ∧ t.d.wallState 0 = 1 ∧ t.d.wallState 1 = 1 ∧ t.d.get (F.MEM_WALL_MAP_BASE 1) = t.d.wallSize 0 ∧ t.d.cells = s.d.cells ∧ t.z = s.z ∧ t.pending = s.pending) ∧
    (s.d.stage = stageCLEARING → s.d.macrosUp = false → ∃ t, exec (.bootClearDone [] []) s = .next t ∧ t.d.macrosUp = true ∧ t.d.cells = [] ∧
      (∀ n off, n < 256 → off < 0x80000 → Memory.read t.d.mem (scratchAddr n off) = 0) ∧ t.z = s.z ∧ t.pending = s.pending) ∧
    (s.d.stage = stageCLEARING → s.d.macrosUp = true → (∀ p : Fin 4, s.d.partState p = codeON) → (∀ x : Fin 256, s.d.coreState x = codeON ∨ s.d.coreState x = codeOFF) →
      ∃ t, exec .clearingDone s = .next t ∧ t.d.stage = stageREADY ∧ t.d.get F.FW_FEAT_ON = (s.d.get F.FW_FEAT_REQ &&& s.d.get F.FW_FEAT_SUP) % 2 ^ 64 ∧ Keeps s t) ∧
    (∀ (f : Fin 64) (rq : Option (Fin 64)), s.d.awake = true → s.d.aux.configOpen = false →
      Gives s (exec (.configurationRequest ⟨f, rq⟩) s) (s.d.emit (.configReply none))) ∧
    (∀ f : Fin 64, s.d.awake = true → s.d.aux.configOpen = true →
      Gives s (exec (.configurationRequest ⟨f, none⟩) s) (s.d.emit (.configReply (some (0x1F3B, if f = 0 then 0x0240 else 0x0241, 0xB0, 0x120000))))) ∧
    (∀ f b : Fin 64, s.d.awake = true → s.d.aux.configOpen = true → 30 ≤ b.val → b.val ≤ (if f = 0 then 39 else 36) →
      ∃ t, exec (.configurationRequest ⟨f, some b⟩) s = .next t ∧ tfind t.d.host.bar4Log2 f = some b.val ∧ t.d.regs = s.d.regs ∧ t.d.mem = s.d.mem ∧ t.z = s.z ∧
        t.pending = s.pending) ∧
    (∀ (gen : Fin 8) (width : Fin 32) (flit : Bool), s.d.awake = true → gen ≠ 0 → [1, 2, 4, 8, 16].contains width.val = true →
      ∃ t, exec (.pcieLinkTrained gen width flit) s = .next t ∧ t.d.get F.HOST_LINK_GEN = gen.val ∧ t.d.get F.HOST_LINK_WIDTH = width.val ∧
        t.d.get F.HOST_LINK_FLIT = b01 flit ∧ OnlyRegs s t [F.HOST_LINK_GEN, F.HOST_LINK_WIDTH, F.HOST_LINK_FLIT])

/-- R360, R361: a service command whose bytes arrive is checked and performed. One that passes asks for the burn of its operation, or writes flash, or opens the debug
port, and one that fails a check ends with the RESULT of it; the nonce is new after every end. Where the spec leaves a choice the model's stands: log entry 213. -/
def Obligations.service_commands : Prop :=
  ∀ (s : State) (b : List Byte), s.d.pfWrites (.fn 0) = true → s.d.mboxTakes stageREADY = true → s.d.feature 3 = true → s.d.procOn 0 = true → s.d.fw.fetch = none →
    s.d.get F.FW_MBOX_IMAGE_BYTES_BYTES = b.length →
    let op := imgNat b 4 1
    let arg := imgNat b 5 1
    let asked := fun (t : State) (x : Burn) => t.d.fw.burns = s.d.fw.burns ++ [(x, true)] ∧ t.d.bit F.FUSE_STATUS_BURNING = true ∧ t.d.bit F.FW_MBOX_STATUS_BUSY = true ∧
      t.d.mem = s.d.mem ∧ t.z = s.z ∧ t.pending = s.pending
    let ended := fun (t : State) (r : Nat) => t.d.get F.FW_MBOX_STATUS_RESULT = r ∧ t.d.bit F.FW_MBOX_STATUS_BUSY = false ∧ t.d.fw.burns = s.d.fw.burns ∧
      t.d.get (F.FW_SVC_NONCE_NONCE 0) = (Config.freeWord s.d.free).toNat ∧ t.d.mem = s.d.mem ∧ t.z = s.z ∧ t.pending = s.pending
    (s.d.serviceCheck b = 0 →
      (op = 1 → ∃ t, exec (.lcAdvance (.fn 0) (some b)) s = .next t ∧ asked t (.lifeCycle arg)) ∧
      (op = 2 → ∃ t, exec (.revokeSlot (.fn 0) (some b)) s = .next t ∧ asked t (.revoke arg)) ∧
      (op = 3 → ∃ t, exec (.svnAdvance (.fn 0) (some b)) s = .next t ∧ asked t (.svn (imgNat b 48 4))) ∧
      (op = 4 → s.d.candidates ≠ [] → ∃ t, exec (.burnCandidates (.fn 0) (some b)) s = .next t ∧ asked t .candidates) ∧
      (op = 5 → ∃ t, exec (.flashWrite (.fn 0) (some b) true) s = .next t ∧ ended t 0 ∧ t.d.flash = (s.d.flashWrite arg (b.drop 256)).flash) ∧
      (op = 6 → ∃ t, exec (.debugUnlock (.fn 0) (some b)) s = .next t ∧ ended t 0 ∧ t.d.get F.LCS_STATE_DEBUG_OPEN = 1)) ∧
    (s.d.serviceCheck b ≠ 0 → s.d.serviceCheck b < 16 →
      (op = 1 ∨ serviceFormatOk b = false → ∃ t, exec (.lcAdvance (.fn 0) (some b)) s = .next t ∧ ended t (s.d.serviceCheck b)) ∧
      (op = 5 ∨ serviceFormatOk b = false → ∃ t, exec (.flashWrite (.fn 0) (some b) true) s = .next t ∧ ended t (s.d.serviceCheck b) ∧ t.d.flash = s.d.flash))

/-- R29, R353, R354, R357, R359, R364: the oldest fuse request is burned, whether its bits read as burned is shown, and a life-cycle transition that has burned wipes the
vaults and shows the new state; a test-port request asks for its burn; a tamper event wipes the vaults, is latched and counted; a watchdog that has reached zero restarts
its processor, and the fourth time in 60 s leaves it stopped; the log takes a record; PERST_N asserted resets. Where the spec leaves a choice the model's stands: log
entries 215, 217, 276. -/
def Obligations.fuses_tamper_and_firmware : Prop :=
  ∀ (s : State),
    (∀ (t : Nat) (waits : Bool) rest (mask : BitVec 1024), s.d.proc0Runs = true → s.d.fw.burns = (.lifeCycle t, waits) :: rest → 1 ≤ t → t ≤ 5 → mask.toNat % 2 = 1 →
      ∃ u, exec (.fuseBurn mask) s = .next u ∧ u.z.fuse.lc = s.z.fuse.lc ||| 2 ^ (t - 1) ∧ u.d.lifeCycle = u.z.fuse.lifeCycle % 2 ^ 4 ∧ u.d.fw.burns = rest ∧
        u.d.get F.FUSE_STATUS_LAST_FAILED = 0 ∧ u.d.get F.POOL_VAULT_STATUS_LAST_CAUSE = 2 ∧ u.d.get F.FUSE_CNT_BURNS = (s.d.get F.FUSE_CNT_BURNS + 1) % 2 ^ 64 ∧ u.pending = s.pending) ∧
    (s.d.lifeCycle = 0 → ∃ u, exec (.factoryTestCommand (.lifeCycle 1)) s = .next u ∧ u.d.fw.burns = s.d.fw.burns ++ [(.lifeCycle 1, false)] ∧ Keeps s u) ∧
    (∀ (live : BitVec 6) (i : Nat), i < 6 → bitsAt live.toNat i 1 = 1 → bitsAt (s.d.get F.LCS_TAMPER_LIVE) i 1 = 0 →
      ∃ u, exec (.tamperDetect live) s = .next u ∧ u.d.get F.LCS_TAMPER_LIVE = live.toNat ∧ bitsAt (u.d.get F.LCS_TAMPER_LATCHED) i 1 = 1 ∧ u.d.fw.sessions = [] ∧
        (∀ (die : Fin 4) a, vaultOff ≤ a → a < vaultOff + 0x100000 → Memory.read u.d.mem (poolAddr die a) = 0) ∧ u.z = s.z ∧ u.pending = s.pending) ∧
    (s.d.lifeCycle = 3 → ∃ u, exec .debugPortAccess s = .next u ∧ bitsAt (u.d.get F.LCS_TAMPER_LATCHED) 4 1 = 1 ∧
      u.d.get F.LCS_CNT_TAMPER = (s.d.get F.LCS_CNT_TAMPER + 1) % 2 ^ 64 ∧ u.z = s.z ∧ u.pending = s.pending) ∧
    (s.d.lifeCycle ≠ 3 → Gives s (exec .debugPortAccess s) s.d) ∧
    (∀ (k : Fin 6) (ns : Nat), s.d.procOn k = true →
      let recent := (tget [] s.d.fw.expiries k).filter fun t => decide (s.d.now + ns < t + 60000000000)
      (0 < (s.d.elapse ns).wdtLeft k → Gives s (exec (.watchdogExpiry k ns) s) (s.d.elapse ns)) ∧
      ((s.d.elapse ns).wdtLeft k = 0 → recent.length < 3 → s.d.bit (F.FW_PROC_STATUS_LASTING k) = false →
        ∃ u, exec (.watchdogExpiry k ns) s = .next u ∧ u.d.get (F.FW_PROC_CNT_WDT k) = (s.d.get (F.FW_PROC_CNT_WDT k) + 1) % 2 ^ 64 ∧
          u.d.get (F.FW_PROC_STATUS_RECENT k) = recent.length + 1 ∧ u.d.stateOf (.proc k) = codeSTOPPING ∧ u.d.get (F.FW_PROC_STATE_ENABLE_PENDING k) = 1 ∧
          u.d.mem = s.d.mem ∧ u.z = s.z ∧ u.pending = s.pending) ∧
      ((s.d.elapse ns).wdtLeft k = 0 → 3 ≤ recent.length →
        ∃ u, exec (.watchdogExpiry k ns) s = .next u ∧ u.d.get (F.FW_PROC_CNT_WDT k) = (s.d.get (F.FW_PROC_CNT_WDT k) + 1) % 2 ^ 64 ∧
          u.d.get (F.FW_PROC_STATUS_RECENT k) = 4 ∧ u.d.get (F.FW_PROC_STATUS_LASTING k) = 1 ∧ u.d.stateOf (.proc k) = codeSTOPPING ∧
          u.d.get (F.FW_PROC_STATE_ENABLE_PENDING k) = 0 ∧ u.d.mem = s.d.mem ∧ u.z = s.z ∧ u.pending = s.pending)) ∧
    (∀ (k : Fin 6), s.d.pfWrites (.fn 0) = true → s.d.feature 2 = true → k ≠ 0 → s.d.procOn k = true → s.d.bit (F.FW_PROC_STATUS_LASTING k) = false →
      ∃ u, exec (.procRestart (.fn 0) k) s = .next u ∧ u.d.stateOf (.proc k) = codeSTOPPING ∧ u.d.get (F.FW_PROC_STATE_ENABLE_PENDING k) = 1 ∧ u.d.mem = s.d.mem ∧
        u.z = s.z ∧ u.pending = s.pending) ∧
    (∀ (q : Requester) (v : BitVec 32), Reaches s q → s.d.feature 0 = true → v.toNat % 2 = 1 → ∃ u, exec (.logEnable q v) s = .next u ∧ u.d.bit F.FW_LOG_CTRL_EN = true ∧
      u.d.get F.FW_LOG_SEQ = 0 ∧ OnlyRegs s u [F.FW_LOG_CTRL_EN, F.FW_LOG_CTRL_MIN_LEVEL, F.FW_LOG_CTRL_LOG2, F.FW_LOG_SEQ]) ∧
    (∀ (level : Fin 4) (code : BitVec 16) (a0 a1 : BitVec 64), s.d.logWritten level = true →
      let seq := s.d.get F.FW_LOG_SEQ + 1
      let l2 := max 8 (min 16 (s.d.get F.FW_LOG_CTRL_LOG2))
      ∃ u, exec (.logRecordCommit 7 (level.castSucc) code a0 a1 false) s = .next u ∧ u.d.get F.FW_LOG_SEQ = seq % 2 ^ 32 ∧
        u.d.out = s.d.out ++ [.hostWrite 0 (s.d.get F.FW_LOG_BASE_BASE + 32 * (seq % 2 ^ l2)) (logBytes s.d.time seq 7 level code.toNat a0.toNat a1.toNat)] ∧
        RegsFrom s { s.d with out := u.d.out } u [F.FW_LOG_SEQ]) ∧
    (s.d.aux.perst = false → s.d.powered = true → s.d.fw.burns = [] →
      ∃ u, exec .perstAssert s = .next u ∧ u.d.aux.perst = true ∧ u.d.host.flights = [] ∧ u.z.setup = {} ∧ u.z.fuse = s.z.fuse ∧
        (∀ a < 2 ^ 48, Memory.read u.d.mem a = Memory.read s.d.mem a) ∧ u.d.cells = s.d.cells ∧ u.pending = s.pending)

/-- R358, R365, R366, R367: SPDM over DOE in READY: a measurement or certificate asked for is answered, a challenge and a key exchange are answered where the identity is
usable; the keys of a stream are programmed within a session. Where the spec leaves a choice the model's stands: log entries 60, 219. -/
def Obligations.spdm_requests : Prop :=
  ∀ (s : State), s.d.stage = stageREADY → s.d.procOn 0 = true →
    (∀ index : BitVec 8, 1 ≤ index.toNat → index.toNat ≤ 5 →
      Gives s (exec (.getMeasurements .doe index false) s) (s.d.emit (.spdm spdmMeasurements (measurementBlock index.toNat (s.d.measurement index.toNat))))) ∧
    (∀ off len : BitVec 16, s.d.identified = true →
      let rest := s.d.flash.identity.drop off.toNat
      Gives s (exec (.getCertificate .doe 0 off len) s) (s.d.emit (.spdm spdmCertificate
        (leBytes 2 (rest.take len.toNat).length ++ leBytes 2 (rest.length - (rest.take len.toNat).length) ++ rest.take len.toNat)))) ∧
    (∀ nonce : BitVec 256, s.d.identified = true → ∃ t sig, exec (.challenge .doe 0 nonce) s = .next t ∧ sig.length = 64 ∧
      t = { s with d := { s.d with free := t.d.free, out := s.d.out ++ [.spdm spdmChallengeAuth (leBytes 32 nonce.toNat ++ sig)] } }) ∧
    (∀ (p : Fin 5) (die : Nat), s.d.identified = true → vaultDie s.z s.d p = some die → ∃ t key, exec (.keyExchange .doe p) s = .next t ∧ t.d.fw.sessions.contains (p.val, die) = true ∧
      t.d.out = s.d.out ++ [.spdm spdmKeyExchangeRsp key] ∧ t.d.regs = s.d.regs ∧ t.d.mem = s.d.mem ∧ t.z = s.z ∧ t.pending = s.pending) ∧
    (∀ p stream : Fin 5, (s.d.fw.sessions.any fun x => x.1 = p.val) = true → (vaultDie s.z s.d p).isSome = true →
      ∃ t, exec (.ideKeyProgram .doe p stream) s = .next t ∧ t.d.fw.streams.contains (p.val, stream.val) = true ∧ t.d.out = s.d.out ++ [.spdm spdmVendor []] ∧
        (stream.val = 0 → t.d.get F.HOST_LINK_IDE_LINK = 1) ∧ t.d.mem = s.d.mem ∧ t.z = s.z ∧ t.pending = s.pending)

/-- R428, R429, R430, R442: the power sequence. PWR_EN with VIN in its limits raises the rails, which are then good, or fault; its fall removes them, and so does each
protection event, with its cause and FAULT_N; FAULT_N is released once PWR_EN is low; the loss of 3V3_AUX loses every record. Where the spec leaves a choice the model's
stands: log entry 230. -/
def Obligations.power_sequence : Prop :=
  ∀ (s : State),
    let lost := fun (o : Host.Outcome State Fault Refusal) (cause : Nat) (fault : Bool) => ∃ t, o = .next t ∧ t.d.aux.rails = .off ∧ t.d.aux.perst = true ∧ t.d.aux.cause = cause ∧
      t.d.aux.fault = fault ∧ t.d.mem = [] ∧ t.d.cells = [] ∧ t.z.setup = {} ∧ t.pending = s.pending
    (∀ straps : Fin 4, s.d.aux.auxOn = false → ∃ t, exec (.auxPowerUp straps) s = .next t ∧ t.d.aux.auxOn = true ∧ t.d.aux.straps = straps.val ∧ t.d.aux.eid = 0 ∧
      t = { s with d := { s.d with aux := t.d.aux } }) ∧
    (s.d.aux.auxOn = true → s.d.aux.pwrEn = false → s.d.aux.vinOk = true → s.d.aux.fault = false → s.d.aux.thermTrip = false → s.d.aux.rails = .off →
      Gives s (exec .pwrEnAssert s) { s.d with aux := { s.d.aux with pwrEn := true, rails := .rising } }) ∧
    (s.d.aux.auxOn = true → s.d.aux.pwrEn = true → s.d.aux.fault = false → s.d.aux.thermTrip = false → s.d.aux.rails = .off →
      Gives s (exec .vinRise s) { s.d with aux := { s.d.aux with vinOk := true, rails := .rising } }) ∧
    (s.d.aux.rails = .rising → Gives s (exec .railUpDone s) { s.d with aux := { s.d.aux with rails := .good } }) ∧
    (s.d.aux.rails = .rising → Gives s (exec .railUpTimeout s) { s.d with aux := { s.d.aux with rails := .off, fault := true, cause := 7 } }) ∧
    (s.d.aux.pwrEn = true → s.d.aux.rails ≠ .off → lost (exec .pwrEnDeassert s) 2 s.d.aux.fault) ∧
    (s.d.aux.rails ≠ .off → lost (exec .vinUndervoltage s) 3 true ∧ lost (exec .vinOvervoltage s) 4 true ∧ lost (exec .overcurrent s) 5 true ∧ lost (exec .stageFault s) 7 true) ∧
    (s.d.aux.pwrEn = false → Gives s (exec .faultRelease s) { s.d with aux := { s.d.aux with fault := false, thermTrip := false } }) ∧
    (s.d.aux.auxOn = true → ∃ t, exec .auxPowerLoss s = .next t ∧ t.d.aux.auxOn = false ∧ t.d.aux.rails = .off ∧ t.d.aux.eid = 0 ∧ t.d.aux.cause = 1 ∧ t.d.aux.events = [] ∧
      t.d.get F.THM_TRIP_TRIPPED = 0 ∧ t.pending = s.pending)

/-- R431, R436 to R441: the SMBus endpoint. In standby and when processor 5 serves it, a request is answered: the first EID stays; a known sensor's reading is given; in
service the sideband cap is set where the feature is on and the value allowed, the receiver is named, the oldest event delivered, and a command that the endpoint does not
have refused; a refresh takes new readings. Where the spec leaves a choice the model's stands: log entries 62, 231, 232, 233. -/
def Obligations.smbus_endpoint : Prop :=
  ∀ (s : State), s.d.aux.auxOn = true →
    let served := s.d.aux.served = true ∧ s.d.procOn 5 = true
    (∀ eid : BitVec 8, s.d.aux.served = false ∨ served → eid ≠ 0 → eid ≠ 255 → s.d.aux.eid = 0 →
      Gives s (exec (.setEndpointId eid) s) (Dev.emit { s.d with aux := { s.d.aux with eid := eid.toNat } } (.pldm 0 [eid]))) ∧
    (∀ id : BitVec 16, (served ∧ numericSensors.contains id.toNat = true) ∨ (s.d.aux.served = false ∧ standbyNumeric.contains id.toNat = true) →
      Gives s (exec (.getSensorReading id) s) (s.d.emit (.pldm 0 (s.d.readingData id.toNat)))) ∧
    (∀ id : BitVec 16, served → stateSensors.contains id.toNat = true →
      Gives s (exec (.getStateSensorReadings id) s) (s.d.emit (.pldm 0 [operEnabled, BitVec.ofNat 8 (s.d.stateSensor id.toNat)]))) ∧
    (∀ v : BitVec 32, served → s.d.feature 4 = true → s.d.capOk v.toNat = true → v.toNat < 2 ^ 11 → ∃ t, exec (.setNumericEffecterValue 64 v) s = .next t ∧
      t.d.get F.PWR_CAP_SIDEBAND_CAP_W = v.toNat ∧ t.d.out = s.d.out ++ [.pldm 0 []] ∧
      RegsFrom s { s.d with out := t.d.out } t [F.PWR_CAP_SIDEBAND_CAP_W, F.PWR_CAP_EFFECTIVE_CAP_W, F.PWR_CAP_EFFECTIVE_TOL_W]) ∧
    (served → Gives s (exec (.getNumericEffecterValue 64) s) (s.d.emit (.pldm 0 (leBytes 4 (s.d.get F.PWR_CAP_SIDEBAND_CAP_W))))) ∧
    (∀ eid : BitVec 8, served → eid ≠ 0 → Gives s (exec (.setEventReceiver eid) s) (Dev.emit { s.d with aux := { s.d.aux with receiver := some eid.toNat } } (.pldm 0 []))) ∧
    (∀ e rest, served → s.d.aux.events = e :: rest →
      Gives s (exec .pollForPlatformEvent s) (Dev.emit { s.d with aux := { s.d.aux with events := rest } } (.pldm 0 (eventClass e.1 :: e.2))) ∧
      (∀ r, s.d.aux.receiver = some r →
        Gives s (exec .platformEventSend s) (Dev.emit { s.d with aux := { s.d.aux with events := rest } } (.pldm (256 + r) (eventClass e.1 :: e.2))))) ∧
    (served → Gives s (exec .pldmUnsupported s) (s.d.emit (.pldm 5 []))) ∧
    (s.d.aux.served = false → Gives s (exec .pldmUnsupported s) (s.d.emit (.pldm 4 []))) ∧
    (∀ inlet stage : BitVec 8, ∀ vin current : BitVec 16, s.d.aux.served = false → ∃ t, exec (.sensorRefresh inlet stage vin current) s = .next t ∧
      tget 0 t.d.aux.readings 1 = inlet.toNat ∧ tget 0 t.d.aux.readings 10 = vin.toNat ∧ t = { s with d := { s.d with aux := t.d.aux } })
end

