-- ==== Sys2Proof/Laws/Memory.lean ====
section
/-! SUPPORT. Sys2Proof/Laws/Memory.lean: the memory operations keep the canonical form, and what a read returns after each. -/
namespace Sys2Proof.Machine

open Sys2Proof

/-! ### The canonical form -/

theorem Memory.wfFrom_mono {lo lo' : Nat} (h : lo' ≤ lo) : ∀ {m : List Host.Cell}, Memory.wfFrom lo m = true → Memory.wfFrom lo' m = true
  | [], _ => rfl
  | (a, v) :: t, hm => by
    simp only [Memory.wfFrom, Bool.and_eq_true, decide_eq_true_eq] at hm ⊢
    exact ⟨⟨by omega, hm.1.2⟩, hm.2⟩

theorem Memory.wfFrom_insert {v : Byte} (hv : v ≠ 0) :
    ∀ {m : List Host.Cell} {lo a : Nat}, lo ≤ a → Memory.wfFrom lo m = true → Memory.wfFrom lo (Memory.insert m a v) = true
  | [], lo, a, h, _ => by
    simp only [Memory.insert, Memory.wfFrom, Bool.and_eq_true, decide_eq_true_eq]
    exact ⟨⟨h, hv⟩, trivial⟩
  | (a', v') :: t, lo, a, h, hm => by
    simp only [Memory.wfFrom, Bool.and_eq_true, decide_eq_true_eq] at hm
    simp only [Memory.insert]
    split
    · rename_i h1
      simp only [Memory.wfFrom, Bool.and_eq_true, decide_eq_true_eq]
      exact ⟨⟨h, hv⟩, ⟨by omega, hm.1.2⟩, hm.2⟩
    · split
      · rename_i h1 h2
        subst h2
        simp only [Memory.wfFrom, Bool.and_eq_true, decide_eq_true_eq]
        exact ⟨⟨h, hv⟩, hm.2⟩
      · rename_i h1 h2
        simp only [Memory.wfFrom, Bool.and_eq_true, decide_eq_true_eq]
        exact ⟨hm.1, Memory.wfFrom_insert hv (by omega) hm.2⟩

theorem Memory.wfFrom_erase : ∀ {m : List Host.Cell} {lo a : Nat}, Memory.wfFrom lo m = true → Memory.wfFrom lo (Memory.erase m a) = true
  | [], _, _, _ => rfl
  | (a', v') :: t, lo, a, hm => by
    simp only [Memory.wfFrom, Bool.and_eq_true, decide_eq_true_eq] at hm
    simp only [Memory.erase]
    split
    · exact Memory.wfFrom_mono (by omega) hm.2
    · simp only [Memory.wfFrom, Bool.and_eq_true, decide_eq_true_eq]
      exact ⟨hm.1, Memory.wfFrom_erase hm.2⟩

theorem Memory.wf_write {m : List Host.Cell} (a : Nat) (v : Byte) (h : Memory.wf m = true) : Memory.wf (Memory.write m a v) = true := by
  unfold Memory.wf Memory.write at *
  split
  · exact Memory.wfFrom_erase h
  · rename_i hv
    exact Memory.wfFrom_insert hv (Nat.zero_le a) h

theorem Memory.wf_writes : ∀ {m : List Host.Cell} (a : Nat) (l : List Byte), Memory.wf m = true → Memory.wf (Memory.writes m a l) = true
  | _, _, [], h => h
  | _, a, v :: t, h => Memory.wf_writes (a + 1) t (Memory.wf_write a v h)

theorem Memory.wfFrom_filter (p : Host.Cell → Bool) : ∀ {m : List Host.Cell} {lo : Nat}, Memory.wfFrom lo m = true → Memory.wfFrom lo (m.filter p) = true
  | [], _, _ => rfl
  | c :: t, lo, hm => by
    obtain ⟨a, v⟩ := c
    simp only [Memory.wfFrom, Bool.and_eq_true, decide_eq_true_eq] at hm
    simp only [List.filter]
    split
    · simp only [Memory.wfFrom, Bool.and_eq_true, decide_eq_true_eq]
      exact ⟨hm.1, Memory.wfFrom_filter p hm.2⟩
    · exact Memory.wfFrom_mono (by omega) (Memory.wfFrom_filter p hm.2)

theorem Memory.wf_filter (p : Host.Cell → Bool) {m : List Host.Cell} (h : Memory.wf m = true) : Memory.wf (m.filter p) = true :=
  Memory.wfFrom_filter p h

theorem Memory.wf_clear {m : List Host.Cell} (a n : Nat) (h : Memory.wf m = true) : Memory.wf (Memory.clear m a n) = true :=
  Memory.wf_filter _ h

@[simp] theorem Memory.wf_nil : Memory.wf [] = true := rfl

/-! ### Reads -/

theorem Memory.read_insert_same (m : List Host.Cell) (a : Nat) (v : Byte) : Memory.read (Memory.insert m a v) a = v := by
  induction m with
  | nil => simp [Memory.insert, Memory.read]
  | cons c t ih =>
    obtain ⟨a', v'⟩ := c
    simp only [Memory.insert]
    split
    · simp [Memory.read]
    · split
      · simp [Memory.read]
      · rename_i h1 h2
        have h : a' ≠ a := fun e => h2 e.symm
        simp [Memory.read, h, ih]

theorem Memory.read_insert_other (m : List Host.Cell) (a b : Nat) (v : Byte) (h : b ≠ a) : Memory.read (Memory.insert m a v) b = Memory.read m b := by
  induction m with
  | nil => simp [Memory.insert, Memory.read, Ne.symm h]
  | cons c t ih =>
    obtain ⟨a', v'⟩ := c
    simp only [Memory.insert]
    split
    · simp [Memory.read, Ne.symm h]
    · split
      · rename_i h2
        subst h2
        simp [Memory.read, Ne.symm h]
      · simp only [Memory.read, ih]

theorem Memory.read_below : ∀ {m : List Host.Cell} {lo a : Nat}, Memory.wfFrom lo m = true → a < lo → Memory.read m a = 0
  | [], _, _, _, _ => rfl
  | (a', v') :: t, lo, a, hm, h => by
    simp only [Memory.wfFrom, Bool.and_eq_true, decide_eq_true_eq] at hm
    have h1 : a' ≠ a := by omega
    simp only [Memory.read, h1, if_false]
    exact Memory.read_below hm.2 (by omega)

theorem Memory.read_erase_same : ∀ {m : List Host.Cell} {lo : Nat} (a : Nat), Memory.wfFrom lo m = true → Memory.read (Memory.erase m a) a = 0
  | [], _, _, _ => rfl
  | (a', v') :: t, lo, a, hm => by
    simp only [Memory.wfFrom, Bool.and_eq_true, decide_eq_true_eq] at hm
    simp only [Memory.erase]
    split
    · rename_i e
      subst e
      exact Memory.read_below hm.2 (by omega)
    · rename_i h
      simp only [Memory.read, h, if_false]
      exact Memory.read_erase_same a hm.2

theorem Memory.read_erase_other (m : List Host.Cell) (a b : Nat) (h : b ≠ a) : Memory.read (Memory.erase m a) b = Memory.read m b := by
  induction m with
  | nil => rfl
  | cons c t ih =>
    obtain ⟨a', v'⟩ := c
    simp only [Memory.erase]
    split
    · rename_i e
      subst e
      simp [Memory.read, Ne.symm h]
    · simp only [Memory.read, ih]

/-- A read of the byte written. -/
theorem Memory.read_write_same {m : List Host.Cell} (a : Nat) (v : Byte) (h : Memory.wf m = true) : Memory.read (Memory.write m a v) a = v := by
  unfold Memory.write
  split
  · rename_i e
    rw [e]
    exact Memory.read_erase_same a h
  · exact Memory.read_insert_same m a v

/-- A read of any other byte. -/
theorem Memory.read_write_other (m : List Host.Cell) (a b : Nat) (v : Byte) (h : b ≠ a) : Memory.read (Memory.write m a v) b = Memory.read m b := by
  unfold Memory.write
  split
  · exact Memory.read_erase_other m a b h
  · exact Memory.read_insert_other m a b v h

/-- A read of a byte outside consecutive bytes written. -/
theorem Memory.read_writes_other : ∀ (m : List Host.Cell) (a : Nat) (l : List Byte) (b : Nat), b < a ∨ a + l.length ≤ b →
    Memory.read (Memory.writes m a l) b = Memory.read m b
  | _, _, [], _, _ => rfl
  | m, a, v :: t, b, h => by
    simp only [List.length_cons] at h
    simp only [Memory.writes]
    rw [Memory.read_writes_other _ (a + 1) t b (by omega), Memory.read_write_other m a b v (by omega)]

/-- A read of one of the consecutive bytes written. -/
theorem Memory.read_writes_inside : ∀ {m : List Host.Cell} (a : Nat) (l : List Byte) (i : Nat), Memory.wf m = true → i < l.length →
    Memory.read (Memory.writes m a l) (a + i) = nth 0 l i
  | _, _, [], i, _, h => by simp at h
  | m, a, v :: t, 0, hm, _ => by
    simp only [Memory.writes, nth, Nat.add_zero]
    rw [Memory.read_writes_other _ (a + 1) t a (by omega), Memory.read_write_same a v hm]
  | m, a, v :: t, i + 1, hm, h => by
    simp only [List.length_cons] at h
    simp only [Memory.writes, nth]
    have := Memory.read_writes_inside (a + 1) t i (Memory.wf_write a v hm) (by omega)
    rw [← this]
    congr 1
    omega

/-- Two memories in canonical form that read alike are equal data. -/
theorem Memory.ext_from : ∀ {m n : List Host.Cell} {lo lo' : Nat}, Memory.wfFrom lo m = true → Memory.wfFrom lo' n = true →
    (∀ a, Memory.read m a = Memory.read n a) → m = n
  | [], [], _, _, _, _, _ => rfl
  | [], (a, v) :: t, _, _, _, hn, h => by
    simp only [Memory.wfFrom, Bool.and_eq_true, decide_eq_true_eq] at hn
    have := h a
    simp [Memory.read] at this
    exact absurd this.symm hn.1.2
  | (a, v) :: t, [], _, _, hm, _, h => by
    simp only [Memory.wfFrom, Bool.and_eq_true, decide_eq_true_eq] at hm
    have := h a
    simp [Memory.read] at this
    exact absurd this hm.1.2
  | (a, v) :: t, (b, w) :: u, lo, lo', hm, hn, h => by
    simp only [Memory.wfFrom, Bool.and_eq_true, decide_eq_true_eq] at hm hn
    have hab : a = b := by
      rcases Nat.lt_trichotomy a b with hlt | heq | hgt
      · have := h a
        have e : b ≠ a := by omega
        simp only [Memory.read, e, if_false, if_true] at this
        rw [Memory.read_below hn.2 (by omega)] at this
        exact absurd this hm.1.2
      · exact heq
      · have := h b
        have e : a ≠ b := by omega
        simp only [Memory.read, e, if_false, if_true] at this
        rw [Memory.read_below hm.2 (by omega)] at this
        exact absurd this.symm hn.1.2
    subst hab
    have hv : v = w := by
      have := h a
      simpa [Memory.read] using this
    subst hv
    have ht : t = u := Memory.ext_from hm.2 hn.2 fun x => by
      by_cases hx : a = x
      · subst hx
        rw [Memory.read_below hm.2 (by omega), Memory.read_below hn.2 (by omega)]
      · have := h x
        simpa [Memory.read, hx] using this
    rw [ht]

end Sys2Proof.Machine
end

