-- ==== Sys2Proof/Laws/Tables.lean ====
section
/-! SUPPORT. Sys2Proof/Laws/Tables.lean: what looking up, setting and erasing a key of a sparse table do to each other. -/
namespace Sys2Proof.Machine

open Sys2Proof

variable {α : Type}

@[simp] theorem tfind_nil (k : Nat) : tfind ([] : Table α) k = none := rfl

@[simp] theorem tfind_tset_same (t : Table α) (k : Nat) (v : α) : tfind (tset t k v) k = some v := by
  induction t with
  | nil => simp [tset, tfind]
  | cons p t ih =>
    obtain ⟨k', v'⟩ := p
    simp only [tset]
    split
    · simp [tfind]
    · split
      · simp [tfind]
      · rename_i h1 h2
        have h : k' ≠ k := fun e => h2 e.symm
        simp [tfind, h, ih]

theorem tfind_tset_other (t : Table α) (k j : Nat) (v : α) (h : j ≠ k) : tfind (tset t k v) j = tfind t j := by
  induction t with
  | nil => simp [tset, tfind, Ne.symm h]
  | cons p t ih =>
    obtain ⟨k', v'⟩ := p
    simp only [tset]
    split
    · simp [tfind, Ne.symm h]
    · split
      · rename_i h2
        subst h2
        simp [tfind, Ne.symm h]
      · simp only [tfind]
        split <;> simp_all

@[simp] theorem tfind_terase_same (t : Table α) (k : Nat) : tfind (terase t k) k = none := by
  induction t with
  | nil => rfl
  | cons p t ih =>
    obtain ⟨k', v'⟩ := p
    simp only [terase]
    split
    · exact ih
    · simp_all [tfind]

theorem tfind_terase_other (t : Table α) (k j : Nat) (h : j ≠ k) : tfind (terase t k) j = tfind t j := by
  induction t with
  | nil => rfl
  | cons p t ih =>
    obtain ⟨k', v'⟩ := p
    simp only [terase]
    split
    · rename_i e
      subst e
      simp [tfind, Ne.symm h, ih]
    · simp only [tfind, ih]

@[simp] theorem tget_tset_same (d : α) (t : Table α) (k : Nat) (v : α) : tget d (tset t k v) k = v := by simp [tget]

theorem tget_tset_other (d : α) (t : Table α) (k j : Nat) (v : α) (h : j ≠ k) : tget d (tset t k v) j = tget d t j := by
  simp [tget, tfind_tset_other t k j v h]

@[simp] theorem tget_terase_same (d : α) (t : Table α) (k : Nat) : tget d (terase t k) k = d := by simp [tget]

theorem tget_terase_other (d : α) (t : Table α) (k j : Nat) (h : j ≠ k) : tget d (terase t k) j = tget d t j := by
  simp [tget, tfind_terase_other t k j h]

/-- Every lookup after a `tset`, by whether the key is the one set. -/
theorem tfind_tset (t : Table α) (k j : Nat) (v : α) : tfind (tset t k v) j = if j = k then some v else tfind t j := by
  by_cases h : j = k
  · subst h; simp
  · simp [h, tfind_tset_other t k j v h]

/-- Every lookup after a `terase`. -/
theorem tfind_terase (t : Table α) (k j : Nat) : tfind (terase t k) j = if j = k then none else tfind t j := by
  by_cases h : j = k
  · subst h; simp
  · simp [h, tfind_terase_other t k j h]

theorem tget_tset (d : α) (t : Table α) (k j : Nat) (v : α) : tget d (tset t k v) j = if j = k then v else tget d t j := by
  by_cases h : j = k
  · subst h; simp
  · simp [h, tget_tset_other d t k j v h]

end Sys2Proof.Machine
end

