-- ==== Sys2Proof/Laws/State.lean ====
section
/-! SUPPORT. Sys2Proof/Laws/State.lean: what each small update of the device leaves alone, field by field, and what a register field reads after a write. -/
namespace Sys2Proof.Machine

open Sys2Proof

/-! ### put -/

@[simp] theorem Dev.put_macrosUp (d : Dev) (f : Fld) (v : Nat) : (d.put f v).macrosUp = d.macrosUp := rfl
@[simp] theorem Dev.put_mem (d : Dev) (f : Fld) (v : Nat) : (d.put f v).mem = d.mem := rfl
@[simp] theorem Dev.put_cells (d : Dev) (f : Fld) (v : Nat) : (d.put f v).cells = d.cells := rfl
@[simp] theorem Dev.put_out (d : Dev) (f : Fld) (v : Nat) : (d.put f v).out = d.out := rfl
@[simp] theorem Dev.put_free (d : Dev) (f : Fld) (v : Nat) : (d.put f v).free = d.free := rfl
@[simp] theorem Dev.put_now (d : Dev) (f : Fld) (v : Nat) : (d.put f v).now = d.now := rfl
@[simp] theorem Dev.put_starts (d : Dev) (f : Fld) (v : Nat) : (d.put f v).starts = d.starts := rfl
@[simp] theorem Dev.put_host (d : Dev) (f : Fld) (v : Nat) : (d.put f v).host = d.host := rfl
@[simp] theorem Dev.put_cim (d : Dev) (f : Fld) (v : Nat) : (d.put f v).cim = d.cim := rfl
@[simp] theorem Dev.put_core (d : Dev) (f : Fld) (v : Nat) : (d.put f v).core = d.core := rfl
@[simp] theorem Dev.put_pool (d : Dev) (f : Fld) (v : Nat) : (d.put f v).pool = d.pool := rfl
@[simp] theorem Dev.put_wall (d : Dev) (f : Fld) (v : Nat) : (d.put f v).wall = d.wall := rfl
@[simp] theorem Dev.put_hlt (d : Dev) (f : Fld) (v : Nat) : (d.put f v).hlt = d.hlt := rfl
@[simp] theorem Dev.put_fab (d : Dev) (f : Fld) (v : Nat) : (d.put f v).fab = d.fab := rfl
@[simp] theorem Dev.put_crs (d : Dev) (f : Fld) (v : Nat) : (d.put f v).crs = d.crs := rfl
@[simp] theorem Dev.put_pwr (d : Dev) (f : Fld) (v : Nat) : (d.put f v).pwr = d.pwr := rfl
@[simp] theorem Dev.put_aux (d : Dev) (f : Fld) (v : Nat) : (d.put f v).aux = d.aux := rfl
@[simp] theorem Dev.put_flash (d : Dev) (f : Fld) (v : Nat) : (d.put f v).flash = d.flash := rfl
@[simp] theorem Dev.put_fw (d : Dev) (f : Fld) (v : Nat) : (d.put f v).fw = d.fw := rfl

/-! ### bump -/

@[simp] theorem Dev.bump_macrosUp (d : Dev) (f : Fld) (n : Nat) : (d.bump f n).macrosUp = d.macrosUp := rfl
@[simp] theorem Dev.bump_mem (d : Dev) (f : Fld) (n : Nat) : (d.bump f n).mem = d.mem := rfl
@[simp] theorem Dev.bump_cells (d : Dev) (f : Fld) (n : Nat) : (d.bump f n).cells = d.cells := rfl
@[simp] theorem Dev.bump_out (d : Dev) (f : Fld) (n : Nat) : (d.bump f n).out = d.out := rfl
@[simp] theorem Dev.bump_free (d : Dev) (f : Fld) (n : Nat) : (d.bump f n).free = d.free := rfl
@[simp] theorem Dev.bump_now (d : Dev) (f : Fld) (n : Nat) : (d.bump f n).now = d.now := rfl
@[simp] theorem Dev.bump_starts (d : Dev) (f : Fld) (n : Nat) : (d.bump f n).starts = d.starts := rfl
@[simp] theorem Dev.bump_host (d : Dev) (f : Fld) (n : Nat) : (d.bump f n).host = d.host := rfl
@[simp] theorem Dev.bump_cim (d : Dev) (f : Fld) (n : Nat) : (d.bump f n).cim = d.cim := rfl
@[simp] theorem Dev.bump_core (d : Dev) (f : Fld) (n : Nat) : (d.bump f n).core = d.core := rfl
@[simp] theorem Dev.bump_pool (d : Dev) (f : Fld) (n : Nat) : (d.bump f n).pool = d.pool := rfl
@[simp] theorem Dev.bump_wall (d : Dev) (f : Fld) (n : Nat) : (d.bump f n).wall = d.wall := rfl
@[simp] theorem Dev.bump_hlt (d : Dev) (f : Fld) (n : Nat) : (d.bump f n).hlt = d.hlt := rfl
@[simp] theorem Dev.bump_fab (d : Dev) (f : Fld) (n : Nat) : (d.bump f n).fab = d.fab := rfl
@[simp] theorem Dev.bump_crs (d : Dev) (f : Fld) (n : Nat) : (d.bump f n).crs = d.crs := rfl
@[simp] theorem Dev.bump_pwr (d : Dev) (f : Fld) (n : Nat) : (d.bump f n).pwr = d.pwr := rfl
@[simp] theorem Dev.bump_aux (d : Dev) (f : Fld) (n : Nat) : (d.bump f n).aux = d.aux := rfl
@[simp] theorem Dev.bump_flash (d : Dev) (f : Fld) (n : Nat) : (d.bump f n).flash = d.flash := rfl
@[simp] theorem Dev.bump_fw (d : Dev) (f : Fld) (n : Nat) : (d.bump f n).fw = d.fw := rfl

/-! ### emit -/

@[simp] theorem Dev.emit_regs (d : Dev) (o : Out) : (d.emit o).regs = d.regs := rfl
@[simp] theorem Dev.emit_macrosUp (d : Dev) (o : Out) : (d.emit o).macrosUp = d.macrosUp := rfl
@[simp] theorem Dev.emit_mem (d : Dev) (o : Out) : (d.emit o).mem = d.mem := rfl
@[simp] theorem Dev.emit_cells (d : Dev) (o : Out) : (d.emit o).cells = d.cells := rfl
@[simp] theorem Dev.emit_free (d : Dev) (o : Out) : (d.emit o).free = d.free := rfl
@[simp] theorem Dev.emit_now (d : Dev) (o : Out) : (d.emit o).now = d.now := rfl
@[simp] theorem Dev.emit_starts (d : Dev) (o : Out) : (d.emit o).starts = d.starts := rfl
@[simp] theorem Dev.emit_host (d : Dev) (o : Out) : (d.emit o).host = d.host := rfl
@[simp] theorem Dev.emit_cim (d : Dev) (o : Out) : (d.emit o).cim = d.cim := rfl
@[simp] theorem Dev.emit_core (d : Dev) (o : Out) : (d.emit o).core = d.core := rfl
@[simp] theorem Dev.emit_pool (d : Dev) (o : Out) : (d.emit o).pool = d.pool := rfl
@[simp] theorem Dev.emit_wall (d : Dev) (o : Out) : (d.emit o).wall = d.wall := rfl
@[simp] theorem Dev.emit_hlt (d : Dev) (o : Out) : (d.emit o).hlt = d.hlt := rfl
@[simp] theorem Dev.emit_fab (d : Dev) (o : Out) : (d.emit o).fab = d.fab := rfl
@[simp] theorem Dev.emit_crs (d : Dev) (o : Out) : (d.emit o).crs = d.crs := rfl
@[simp] theorem Dev.emit_pwr (d : Dev) (o : Out) : (d.emit o).pwr = d.pwr := rfl
@[simp] theorem Dev.emit_aux (d : Dev) (o : Out) : (d.emit o).aux = d.aux := rfl
@[simp] theorem Dev.emit_flash (d : Dev) (o : Out) : (d.emit o).flash = d.flash := rfl
@[simp] theorem Dev.emit_fw (d : Dev) (o : Out) : (d.emit o).fw = d.fw := rfl

/-! ### tell -/

@[simp] theorem Dev.tell_regs (d : Dev) (p c a : Nat) : (d.tell p c a).regs = d.regs := rfl
@[simp] theorem Dev.tell_macrosUp (d : Dev) (p c a : Nat) : (d.tell p c a).macrosUp = d.macrosUp := rfl
@[simp] theorem Dev.tell_mem (d : Dev) (p c a : Nat) : (d.tell p c a).mem = d.mem := rfl
@[simp] theorem Dev.tell_cells (d : Dev) (p c a : Nat) : (d.tell p c a).cells = d.cells := rfl
@[simp] theorem Dev.tell_free (d : Dev) (p c a : Nat) : (d.tell p c a).free = d.free := rfl
@[simp] theorem Dev.tell_now (d : Dev) (p c a : Nat) : (d.tell p c a).now = d.now := rfl
@[simp] theorem Dev.tell_starts (d : Dev) (p c a : Nat) : (d.tell p c a).starts = d.starts := rfl
@[simp] theorem Dev.tell_host (d : Dev) (p c a : Nat) : (d.tell p c a).host = d.host := rfl
@[simp] theorem Dev.tell_cim (d : Dev) (p c a : Nat) : (d.tell p c a).cim = d.cim := rfl
@[simp] theorem Dev.tell_core (d : Dev) (p c a : Nat) : (d.tell p c a).core = d.core := rfl
@[simp] theorem Dev.tell_pool (d : Dev) (p c a : Nat) : (d.tell p c a).pool = d.pool := rfl
@[simp] theorem Dev.tell_wall (d : Dev) (p c a : Nat) : (d.tell p c a).wall = d.wall := rfl
@[simp] theorem Dev.tell_hlt (d : Dev) (p c a : Nat) : (d.tell p c a).hlt = d.hlt := rfl
@[simp] theorem Dev.tell_fab (d : Dev) (p c a : Nat) : (d.tell p c a).fab = d.fab := rfl
@[simp] theorem Dev.tell_crs (d : Dev) (p c a : Nat) : (d.tell p c a).crs = d.crs := rfl
@[simp] theorem Dev.tell_pwr (d : Dev) (p c a : Nat) : (d.tell p c a).pwr = d.pwr := rfl
@[simp] theorem Dev.tell_aux (d : Dev) (p c a : Nat) : (d.tell p c a).aux = d.aux := rfl
@[simp] theorem Dev.tell_flash (d : Dev) (p c a : Nat) : (d.tell p c a).flash = d.flash := rfl
@[simp] theorem Dev.tell_fw (d : Dev) (p c a : Nat) : (d.tell p c a).fw = d.fw := rfl

/-! ### modCtx -/

@[simp] theorem Dev.modCtx_regs (d : Dev) (c : Nat) (f : CtxRun → CtxRun) : (d.modCtx c f).regs = d.regs := rfl
@[simp] theorem Dev.modCtx_macrosUp (d : Dev) (c : Nat) (f : CtxRun → CtxRun) : (d.modCtx c f).macrosUp = d.macrosUp := rfl
@[simp] theorem Dev.modCtx_mem (d : Dev) (c : Nat) (f : CtxRun → CtxRun) : (d.modCtx c f).mem = d.mem := rfl
@[simp] theorem Dev.modCtx_cells (d : Dev) (c : Nat) (f : CtxRun → CtxRun) : (d.modCtx c f).cells = d.cells := rfl
@[simp] theorem Dev.modCtx_out (d : Dev) (c : Nat) (f : CtxRun → CtxRun) : (d.modCtx c f).out = d.out := rfl
@[simp] theorem Dev.modCtx_free (d : Dev) (c : Nat) (f : CtxRun → CtxRun) : (d.modCtx c f).free = d.free := rfl
@[simp] theorem Dev.modCtx_now (d : Dev) (c : Nat) (f : CtxRun → CtxRun) : (d.modCtx c f).now = d.now := rfl
@[simp] theorem Dev.modCtx_starts (d : Dev) (c : Nat) (f : CtxRun → CtxRun) : (d.modCtx c f).starts = d.starts := rfl
@[simp] theorem Dev.modCtx_cim (d : Dev) (c : Nat) (f : CtxRun → CtxRun) : (d.modCtx c f).cim = d.cim := rfl
@[simp] theorem Dev.modCtx_core (d : Dev) (c : Nat) (f : CtxRun → CtxRun) : (d.modCtx c f).core = d.core := rfl
@[simp] theorem Dev.modCtx_pool (d : Dev) (c : Nat) (f : CtxRun → CtxRun) : (d.modCtx c f).pool = d.pool := rfl
@[simp] theorem Dev.modCtx_wall (d : Dev) (c : Nat) (f : CtxRun → CtxRun) : (d.modCtx c f).wall = d.wall := rfl
@[simp] theorem Dev.modCtx_hlt (d : Dev) (c : Nat) (f : CtxRun → CtxRun) : (d.modCtx c f).hlt = d.hlt := rfl
@[simp] theorem Dev.modCtx_fab (d : Dev) (c : Nat) (f : CtxRun → CtxRun) : (d.modCtx c f).fab = d.fab := rfl
@[simp] theorem Dev.modCtx_crs (d : Dev) (c : Nat) (f : CtxRun → CtxRun) : (d.modCtx c f).crs = d.crs := rfl
@[simp] theorem Dev.modCtx_pwr (d : Dev) (c : Nat) (f : CtxRun → CtxRun) : (d.modCtx c f).pwr = d.pwr := rfl
@[simp] theorem Dev.modCtx_aux (d : Dev) (c : Nat) (f : CtxRun → CtxRun) : (d.modCtx c f).aux = d.aux := rfl
@[simp] theorem Dev.modCtx_flash (d : Dev) (c : Nat) (f : CtxRun → CtxRun) : (d.modCtx c f).flash = d.flash := rfl
@[simp] theorem Dev.modCtx_fw (d : Dev) (c : Nat) (f : CtxRun → CtxRun) : (d.modCtx c f).fw = d.fw := rfl

/-! ### setFlight -/

@[simp] theorem Dev.setFlight_regs (d : Dev) (i : Nat) (f : Flight) : (d.setFlight i f).regs = d.regs := rfl
@[simp] theorem Dev.setFlight_macrosUp (d : Dev) (i : Nat) (f : Flight) : (d.setFlight i f).macrosUp = d.macrosUp := rfl
@[simp] theorem Dev.setFlight_mem (d : Dev) (i : Nat) (f : Flight) : (d.setFlight i f).mem = d.mem := rfl
@[simp] theorem Dev.setFlight_cells (d : Dev) (i : Nat) (f : Flight) : (d.setFlight i f).cells = d.cells := rfl
@[simp] theorem Dev.setFlight_out (d : Dev) (i : Nat) (f : Flight) : (d.setFlight i f).out = d.out := rfl
@[simp] theorem Dev.setFlight_free (d : Dev) (i : Nat) (f : Flight) : (d.setFlight i f).free = d.free := rfl
@[simp] theorem Dev.setFlight_now (d : Dev) (i : Nat) (f : Flight) : (d.setFlight i f).now = d.now := rfl
@[simp] theorem Dev.setFlight_starts (d : Dev) (i : Nat) (f : Flight) : (d.setFlight i f).starts = d.starts := rfl
@[simp] theorem Dev.setFlight_cim (d : Dev) (i : Nat) (f : Flight) : (d.setFlight i f).cim = d.cim := rfl
@[simp] theorem Dev.setFlight_core (d : Dev) (i : Nat) (f : Flight) : (d.setFlight i f).core = d.core := rfl
@[simp] theorem Dev.setFlight_pool (d : Dev) (i : Nat) (f : Flight) : (d.setFlight i f).pool = d.pool := rfl
@[simp] theorem Dev.setFlight_wall (d : Dev) (i : Nat) (f : Flight) : (d.setFlight i f).wall = d.wall := rfl
@[simp] theorem Dev.setFlight_hlt (d : Dev) (i : Nat) (f : Flight) : (d.setFlight i f).hlt = d.hlt := rfl
@[simp] theorem Dev.setFlight_fab (d : Dev) (i : Nat) (f : Flight) : (d.setFlight i f).fab = d.fab := rfl
@[simp] theorem Dev.setFlight_crs (d : Dev) (i : Nat) (f : Flight) : (d.setFlight i f).crs = d.crs := rfl
@[simp] theorem Dev.setFlight_pwr (d : Dev) (i : Nat) (f : Flight) : (d.setFlight i f).pwr = d.pwr := rfl
@[simp] theorem Dev.setFlight_aux (d : Dev) (i : Nat) (f : Flight) : (d.setFlight i f).aux = d.aux := rfl
@[simp] theorem Dev.setFlight_flash (d : Dev) (i : Nat) (f : Flight) : (d.setFlight i f).flash = d.flash := rfl
@[simp] theorem Dev.setFlight_fw (d : Dev) (i : Nat) (f : Flight) : (d.setFlight i f).fw = d.fw := rfl

/-! ### modCore -/

@[simp] theorem Dev.modCore_regs (d : Dev) (n : Nat) (f : CoreRun → CoreRun) : (d.modCore n f).regs = d.regs := rfl
@[simp] theorem Dev.modCore_macrosUp (d : Dev) (n : Nat) (f : CoreRun → CoreRun) : (d.modCore n f).macrosUp = d.macrosUp := rfl
@[simp] theorem Dev.modCore_mem (d : Dev) (n : Nat) (f : CoreRun → CoreRun) : (d.modCore n f).mem = d.mem := rfl
@[simp] theorem Dev.modCore_cells (d : Dev) (n : Nat) (f : CoreRun → CoreRun) : (d.modCore n f).cells = d.cells := rfl
@[simp] theorem Dev.modCore_out (d : Dev) (n : Nat) (f : CoreRun → CoreRun) : (d.modCore n f).out = d.out := rfl
@[simp] theorem Dev.modCore_free (d : Dev) (n : Nat) (f : CoreRun → CoreRun) : (d.modCore n f).free = d.free := rfl
@[simp] theorem Dev.modCore_now (d : Dev) (n : Nat) (f : CoreRun → CoreRun) : (d.modCore n f).now = d.now := rfl
@[simp] theorem Dev.modCore_starts (d : Dev) (n : Nat) (f : CoreRun → CoreRun) : (d.modCore n f).starts = d.starts := rfl
@[simp] theorem Dev.modCore_host (d : Dev) (n : Nat) (f : CoreRun → CoreRun) : (d.modCore n f).host = d.host := rfl
@[simp] theorem Dev.modCore_cim (d : Dev) (n : Nat) (f : CoreRun → CoreRun) : (d.modCore n f).cim = d.cim := rfl
@[simp] theorem Dev.modCore_pool (d : Dev) (n : Nat) (f : CoreRun → CoreRun) : (d.modCore n f).pool = d.pool := rfl
@[simp] theorem Dev.modCore_wall (d : Dev) (n : Nat) (f : CoreRun → CoreRun) : (d.modCore n f).wall = d.wall := rfl
@[simp] theorem Dev.modCore_hlt (d : Dev) (n : Nat) (f : CoreRun → CoreRun) : (d.modCore n f).hlt = d.hlt := rfl
@[simp] theorem Dev.modCore_fab (d : Dev) (n : Nat) (f : CoreRun → CoreRun) : (d.modCore n f).fab = d.fab := rfl
@[simp] theorem Dev.modCore_crs (d : Dev) (n : Nat) (f : CoreRun → CoreRun) : (d.modCore n f).crs = d.crs := rfl
@[simp] theorem Dev.modCore_pwr (d : Dev) (n : Nat) (f : CoreRun → CoreRun) : (d.modCore n f).pwr = d.pwr := rfl
@[simp] theorem Dev.modCore_aux (d : Dev) (n : Nat) (f : CoreRun → CoreRun) : (d.modCore n f).aux = d.aux := rfl
@[simp] theorem Dev.modCore_flash (d : Dev) (n : Nat) (f : CoreRun → CoreRun) : (d.modCore n f).flash = d.flash := rfl
@[simp] theorem Dev.modCore_fw (d : Dev) (n : Nat) (f : CoreRun → CoreRun) : (d.modCore n f).fw = d.fw := rfl

/-! ### modMacro -/

@[simp] theorem Dev.modMacro_regs (d : Dev) (n m : Nat) (f : MacroRun → MacroRun) : (d.modMacro n m f).regs = d.regs := rfl
@[simp] theorem Dev.modMacro_macrosUp (d : Dev) (n m : Nat) (f : MacroRun → MacroRun) : (d.modMacro n m f).macrosUp = d.macrosUp := rfl
@[simp] theorem Dev.modMacro_mem (d : Dev) (n m : Nat) (f : MacroRun → MacroRun) : (d.modMacro n m f).mem = d.mem := rfl
@[simp] theorem Dev.modMacro_cells (d : Dev) (n m : Nat) (f : MacroRun → MacroRun) : (d.modMacro n m f).cells = d.cells := rfl
@[simp] theorem Dev.modMacro_out (d : Dev) (n m : Nat) (f : MacroRun → MacroRun) : (d.modMacro n m f).out = d.out := rfl
@[simp] theorem Dev.modMacro_free (d : Dev) (n m : Nat) (f : MacroRun → MacroRun) : (d.modMacro n m f).free = d.free := rfl
@[simp] theorem Dev.modMacro_now (d : Dev) (n m : Nat) (f : MacroRun → MacroRun) : (d.modMacro n m f).now = d.now := rfl
@[simp] theorem Dev.modMacro_starts (d : Dev) (n m : Nat) (f : MacroRun → MacroRun) : (d.modMacro n m f).starts = d.starts := rfl
@[simp] theorem Dev.modMacro_host (d : Dev) (n m : Nat) (f : MacroRun → MacroRun) : (d.modMacro n m f).host = d.host := rfl
@[simp] theorem Dev.modMacro_core (d : Dev) (n m : Nat) (f : MacroRun → MacroRun) : (d.modMacro n m f).core = d.core := rfl
@[simp] theorem Dev.modMacro_pool (d : Dev) (n m : Nat) (f : MacroRun → MacroRun) : (d.modMacro n m f).pool = d.pool := rfl
@[simp] theorem Dev.modMacro_wall (d : Dev) (n m : Nat) (f : MacroRun → MacroRun) : (d.modMacro n m f).wall = d.wall := rfl
@[simp] theorem Dev.modMacro_hlt (d : Dev) (n m : Nat) (f : MacroRun → MacroRun) : (d.modMacro n m f).hlt = d.hlt := rfl
@[simp] theorem Dev.modMacro_fab (d : Dev) (n m : Nat) (f : MacroRun → MacroRun) : (d.modMacro n m f).fab = d.fab := rfl
@[simp] theorem Dev.modMacro_crs (d : Dev) (n m : Nat) (f : MacroRun → MacroRun) : (d.modMacro n m f).crs = d.crs := rfl
@[simp] theorem Dev.modMacro_pwr (d : Dev) (n m : Nat) (f : MacroRun → MacroRun) : (d.modMacro n m f).pwr = d.pwr := rfl
@[simp] theorem Dev.modMacro_aux (d : Dev) (n m : Nat) (f : MacroRun → MacroRun) : (d.modMacro n m f).aux = d.aux := rfl
@[simp] theorem Dev.modMacro_flash (d : Dev) (n m : Nat) (f : MacroRun → MacroRun) : (d.modMacro n m f).flash = d.flash := rfl
@[simp] theorem Dev.modMacro_fw (d : Dev) (n m : Nat) (f : MacroRun → MacroRun) : (d.modMacro n m f).fw = d.fw := rfl

/-! ### setRow -/

@[simp] theorem Dev.setRow_regs (d : Dev) (n m bank r v : Nat) : (d.setRow n m bank r v).regs = d.regs := rfl
@[simp] theorem Dev.setRow_macrosUp (d : Dev) (n m bank r v : Nat) : (d.setRow n m bank r v).macrosUp = d.macrosUp := rfl
@[simp] theorem Dev.setRow_mem (d : Dev) (n m bank r v : Nat) : (d.setRow n m bank r v).mem = d.mem := rfl
@[simp] theorem Dev.setRow_out (d : Dev) (n m bank r v : Nat) : (d.setRow n m bank r v).out = d.out := rfl
@[simp] theorem Dev.setRow_free (d : Dev) (n m bank r v : Nat) : (d.setRow n m bank r v).free = d.free := rfl
@[simp] theorem Dev.setRow_now (d : Dev) (n m bank r v : Nat) : (d.setRow n m bank r v).now = d.now := rfl
@[simp] theorem Dev.setRow_starts (d : Dev) (n m bank r v : Nat) : (d.setRow n m bank r v).starts = d.starts := rfl
@[simp] theorem Dev.setRow_host (d : Dev) (n m bank r v : Nat) : (d.setRow n m bank r v).host = d.host := rfl
@[simp] theorem Dev.setRow_cim (d : Dev) (n m bank r v : Nat) : (d.setRow n m bank r v).cim = d.cim := rfl
@[simp] theorem Dev.setRow_core (d : Dev) (n m bank r v : Nat) : (d.setRow n m bank r v).core = d.core := rfl
@[simp] theorem Dev.setRow_pool (d : Dev) (n m bank r v : Nat) : (d.setRow n m bank r v).pool = d.pool := rfl
@[simp] theorem Dev.setRow_wall (d : Dev) (n m bank r v : Nat) : (d.setRow n m bank r v).wall = d.wall := rfl
@[simp] theorem Dev.setRow_hlt (d : Dev) (n m bank r v : Nat) : (d.setRow n m bank r v).hlt = d.hlt := rfl
@[simp] theorem Dev.setRow_fab (d : Dev) (n m bank r v : Nat) : (d.setRow n m bank r v).fab = d.fab := rfl
@[simp] theorem Dev.setRow_crs (d : Dev) (n m bank r v : Nat) : (d.setRow n m bank r v).crs = d.crs := rfl
@[simp] theorem Dev.setRow_pwr (d : Dev) (n m bank r v : Nat) : (d.setRow n m bank r v).pwr = d.pwr := rfl
@[simp] theorem Dev.setRow_aux (d : Dev) (n m bank r v : Nat) : (d.setRow n m bank r v).aux = d.aux := rfl
@[simp] theorem Dev.setRow_flash (d : Dev) (n m bank r v : Nat) : (d.setRow n m bank r v).flash = d.flash := rfl
@[simp] theorem Dev.setRow_fw (d : Dev) (n m bank r v : Nat) : (d.setRow n m bank r v).fw = d.fw := rfl

/-! ### clearBank -/

@[simp] theorem Dev.clearBank_regs (d : Dev) (n m bank : Nat) : (d.clearBank n m bank).regs = d.regs := rfl
@[simp] theorem Dev.clearBank_macrosUp (d : Dev) (n m bank : Nat) : (d.clearBank n m bank).macrosUp = d.macrosUp := rfl
@[simp] theorem Dev.clearBank_mem (d : Dev) (n m bank : Nat) : (d.clearBank n m bank).mem = d.mem := rfl
@[simp] theorem Dev.clearBank_out (d : Dev) (n m bank : Nat) : (d.clearBank n m bank).out = d.out := rfl
@[simp] theorem Dev.clearBank_free (d : Dev) (n m bank : Nat) : (d.clearBank n m bank).free = d.free := rfl
@[simp] theorem Dev.clearBank_now (d : Dev) (n m bank : Nat) : (d.clearBank n m bank).now = d.now := rfl
@[simp] theorem Dev.clearBank_starts (d : Dev) (n m bank : Nat) : (d.clearBank n m bank).starts = d.starts := rfl
@[simp] theorem Dev.clearBank_host (d : Dev) (n m bank : Nat) : (d.clearBank n m bank).host = d.host := rfl
@[simp] theorem Dev.clearBank_cim (d : Dev) (n m bank : Nat) : (d.clearBank n m bank).cim = d.cim := rfl
@[simp] theorem Dev.clearBank_core (d : Dev) (n m bank : Nat) : (d.clearBank n m bank).core = d.core := rfl
@[simp] theorem Dev.clearBank_pool (d : Dev) (n m bank : Nat) : (d.clearBank n m bank).pool = d.pool := rfl
@[simp] theorem Dev.clearBank_wall (d : Dev) (n m bank : Nat) : (d.clearBank n m bank).wall = d.wall := rfl
@[simp] theorem Dev.clearBank_hlt (d : Dev) (n m bank : Nat) : (d.clearBank n m bank).hlt = d.hlt := rfl
@[simp] theorem Dev.clearBank_fab (d : Dev) (n m bank : Nat) : (d.clearBank n m bank).fab = d.fab := rfl
@[simp] theorem Dev.clearBank_crs (d : Dev) (n m bank : Nat) : (d.clearBank n m bank).crs = d.crs := rfl
@[simp] theorem Dev.clearBank_pwr (d : Dev) (n m bank : Nat) : (d.clearBank n m bank).pwr = d.pwr := rfl
@[simp] theorem Dev.clearBank_aux (d : Dev) (n m bank : Nat) : (d.clearBank n m bank).aux = d.aux := rfl
@[simp] theorem Dev.clearBank_flash (d : Dev) (n m bank : Nat) : (d.clearBank n m bank).flash = d.flash := rfl
@[simp] theorem Dev.clearBank_fw (d : Dev) (n m bank : Nat) : (d.clearBank n m bank).fw = d.fw := rfl

/-! ### puts -/

/-- Setting several fields changes the register file alone. -/
theorem Dev.puts_eq (l : List (Fld × Nat)) : ∀ d : Dev, d.puts l = { d with regs := (d.puts l).regs } := by
  induction l with
  | nil => intro d; rfl
  | cons p l ih =>
    intro d
    have h : d.puts (p :: l) = (d.put p.1 p.2).puts l := rfl
    rw [h, ih (d.put p.1 p.2)]
    rfl

@[simp] theorem Dev.puts_macrosUp (d : Dev) (l : List (Fld × Nat)) : (d.puts l).macrosUp = d.macrosUp := by rw [Dev.puts_eq]
@[simp] theorem Dev.puts_mem (d : Dev) (l : List (Fld × Nat)) : (d.puts l).mem = d.mem := by rw [Dev.puts_eq]
@[simp] theorem Dev.puts_cells (d : Dev) (l : List (Fld × Nat)) : (d.puts l).cells = d.cells := by rw [Dev.puts_eq]
@[simp] theorem Dev.puts_out (d : Dev) (l : List (Fld × Nat)) : (d.puts l).out = d.out := by rw [Dev.puts_eq]
@[simp] theorem Dev.puts_free (d : Dev) (l : List (Fld × Nat)) : (d.puts l).free = d.free := by rw [Dev.puts_eq]
@[simp] theorem Dev.puts_now (d : Dev) (l : List (Fld × Nat)) : (d.puts l).now = d.now := by rw [Dev.puts_eq]
@[simp] theorem Dev.puts_starts (d : Dev) (l : List (Fld × Nat)) : (d.puts l).starts = d.starts := by rw [Dev.puts_eq]
@[simp] theorem Dev.puts_host (d : Dev) (l : List (Fld × Nat)) : (d.puts l).host = d.host := by rw [Dev.puts_eq]
@[simp] theorem Dev.puts_cim (d : Dev) (l : List (Fld × Nat)) : (d.puts l).cim = d.cim := by rw [Dev.puts_eq]
@[simp] theorem Dev.puts_core (d : Dev) (l : List (Fld × Nat)) : (d.puts l).core = d.core := by rw [Dev.puts_eq]
@[simp] theorem Dev.puts_pool (d : Dev) (l : List (Fld × Nat)) : (d.puts l).pool = d.pool := by rw [Dev.puts_eq]
@[simp] theorem Dev.puts_wall (d : Dev) (l : List (Fld × Nat)) : (d.puts l).wall = d.wall := by rw [Dev.puts_eq]
@[simp] theorem Dev.puts_hlt (d : Dev) (l : List (Fld × Nat)) : (d.puts l).hlt = d.hlt := by rw [Dev.puts_eq]
@[simp] theorem Dev.puts_fab (d : Dev) (l : List (Fld × Nat)) : (d.puts l).fab = d.fab := by rw [Dev.puts_eq]
@[simp] theorem Dev.puts_crs (d : Dev) (l : List (Fld × Nat)) : (d.puts l).crs = d.crs := by rw [Dev.puts_eq]
@[simp] theorem Dev.puts_pwr (d : Dev) (l : List (Fld × Nat)) : (d.puts l).pwr = d.pwr := by rw [Dev.puts_eq]
@[simp] theorem Dev.puts_aux (d : Dev) (l : List (Fld × Nat)) : (d.puts l).aux = d.aux := by rw [Dev.puts_eq]
@[simp] theorem Dev.puts_flash (d : Dev) (l : List (Fld × Nat)) : (d.puts l).flash = d.flash := by rw [Dev.puts_eq]
@[simp] theorem Dev.puts_fw (d : Dev) (l : List (Fld × Nat)) : (d.puts l).fw = d.fw := by rw [Dev.puts_eq]

@[simp] theorem Dev.puts_nil (d : Dev) : d.puts [] = d := rfl

theorem Dev.puts_cons (d : Dev) (p : Fld × Nat) (l : List (Fld × Nat)) : d.puts (p :: l) = (d.put p.1 p.2).puts l := rfl

/-! ### Register fields -/

@[simp] theorem Dev.unset_put (d : Dev) (f g : Fld) (v : Nat) : (d.put f v).unset g = d.unset g := rfl

/-- A field reads what was written to it, cut to its width. -/
@[simp] theorem Dev.get_put_same (d : Dev) (f : Fld) (v : Nat) : (d.put f v).get f = v % 2 ^ f.len := by
  simp [Dev.get, Dev.put, RegFile.put]

/-- A field reads as before where another is written. -/
theorem Dev.get_put_other (d : Dev) (f g : Fld) (v : Nat) (h : g.key ≠ f.key) : (d.put f v).get g = d.get g := by
  simp only [Dev.get, Dev.unset_put]
  simp [Dev.put, RegFile.put, tget_tset_other _ _ _ _ _ h]

/-- Every read after a write, by whether the places agree. -/
theorem Dev.get_put (d : Dev) (f g : Fld) (v : Nat) : (d.put f v).get g = if g.key = f.key then v % 2 ^ f.len else d.get g := by
  by_cases h : g.key = f.key
  · simp [h, Dev.get, Dev.put, RegFile.put]
  · simp [h, Dev.get_put_other d f g v h]

@[simp] theorem Dev.get_bump_same (d : Dev) (f : Fld) (n : Nat) : (d.bump f n).get f = (d.get f + n) % 2 ^ f.len := by
  simp [Dev.bump]

theorem Dev.get_bump_other (d : Dev) (f g : Fld) (n : Nat) (h : g.key ≠ f.key) : (d.bump f n).get g = d.get g :=
  Dev.get_put_other d f g _ h

/-- A field that is in no pair of a list reads as before. -/
theorem Dev.get_puts_other (l : List (Fld × Nat)) : ∀ (d : Dev) (g : Fld), (∀ p ∈ l, g.key ≠ p.1.key) → (d.puts l).get g = d.get g := by
  induction l with
  | nil => intro d g _; rfl
  | cons p l ih =>
    intro d g h
    rw [Dev.puts_cons, ih _ _ fun q hq => h q (List.mem_cons_of_mem _ hq)]
    exact Dev.get_put_other d p.1 g p.2 (h p (List.mem_cons_self ..))

@[simp] theorem Dev.get_emit (d : Dev) (o : Out) (f : Fld) : (d.emit o).get f = d.get f := rfl
@[simp] theorem Dev.get_tell (d : Dev) (p c a : Nat) (f : Fld) : (d.tell p c a).get f = d.get f := rfl
@[simp] theorem Dev.get_modCtx (d : Dev) (c : Nat) (g : CtxRun → CtxRun) (f : Fld) : (d.modCtx c g).get f = d.get f := rfl
@[simp] theorem Dev.get_setFlight (d : Dev) (i : Nat) (x : Flight) (f : Fld) : (d.setFlight i x).get f = d.get f := rfl
@[simp] theorem Dev.get_modCore (d : Dev) (n : Nat) (g : CoreRun → CoreRun) (f : Fld) : (d.modCore n g).get f = d.get f := rfl
@[simp] theorem Dev.get_modMacro (d : Dev) (n m : Nat) (g : MacroRun → MacroRun) (f : Fld) : (d.modMacro n m g).get f = d.get f := rfl
@[simp] theorem Dev.get_setRow (d : Dev) (n m bank r v : Nat) (f : Fld) : (d.setRow n m bank r v).get f = d.get f := rfl
@[simp] theorem Dev.get_clearBank (d : Dev) (n m bank : Nat) (f : Fld) : (d.clearBank n m bank).get f = d.get f := rfl

/-! ### Tables of the device -/

@[simp] theorem Dev.ctxRun_modCtx_same (d : Dev) (c : Nat) (g : CtxRun → CtxRun) : (d.modCtx c g).ctxRun c = g (d.ctxRun c) := by
  simp [Dev.ctxRun, Dev.modCtx, tmod]

@[simp] theorem Dev.coreRun_modCore_same (d : Dev) (n : Nat) (g : CoreRun → CoreRun) : (d.modCore n g).coreRun n = g (d.coreRun n) := by
  simp [Dev.coreRun, Dev.modCore, tmod]

theorem Dev.coreRun_modCore_other (d : Dev) (n k : Nat) (g : CoreRun → CoreRun) (h : k ≠ n) : (d.modCore n g).coreRun k = d.coreRun k := by
  simp [Dev.coreRun, Dev.modCore, tmod, tget_tset_other _ _ _ _ _ h]

@[simp] theorem Dev.macroRun_modMacro_same (d : Dev) (n m : Nat) (g : MacroRun → MacroRun) :
    (d.modMacro n m g).macroRun n m = g (d.macroRun n m) := by
  simp [Dev.macroRun, Dev.modMacro, tmod]

@[simp] theorem Dev.flight_setFlight_same (d : Dev) (i : Nat) (f : Flight) : (d.setFlight i f).flight i = some f := by
  simp [Dev.flight, Dev.setFlight]

theorem Dev.flight_setFlight_other (d : Dev) (i j : Nat) (f : Flight) (h : j ≠ i) : (d.setFlight i f).flight j = d.flight j := by
  simp [Dev.flight, Dev.setFlight, tfind_tset_other _ _ _ _ h]

/-- An update of the device leaves the fixed part and the queue alone. -/
theorem State.upd_next (s : State) (f : Fixed → Dev → Dev) : s.upd f = .next { s with d := f s.z s.d } := rfl

end Sys2Proof.Machine
end

