-- ==== Sys2Proof/Laws/Ops.lean ====
section
/-! SUPPORT. Sys2Proof/Laws/Ops.lean: what the shared operations can do: stores keep the canonical form of the memory, a store outside the walls writes its bytes and
no others, the end of a descriptor's work, events and failure records leave memory and cells alone. -/
namespace Sys2Proof.Machine

open Sys2Proof

/-! ### Memory operations keep the canonical form -/

/-- A fold keeps a property that each of its steps keeps. -/
theorem foldl_keeps {α β : Type} (P : β → Prop) (f : β → α → β) (h : ∀ b a, P b → P (f b a)) : ∀ (l : List α) (b : β), P b → P (l.foldl f b)
  | [], _, hb => hb
  | a :: l, b, hb => foldl_keeps P f h l (f b a) (h b a hb)

@[simp] theorem Dev.bumps_mem (l : List Fld) : ∀ d : Dev, (d.bumps l).mem = d.mem := by
  induction l with
  | nil => intro d; rfl
  | cons f l ih => intro d; exact ih (d.bump f 1)

@[simp] theorem Dev.unitsWritten_mem (d : Dev) (w : Nat) (us : List (Nat × Nat)) : (d.unitsWritten w us).mem = d.mem := by
  simp only [Dev.unitsWritten, Dev.bumps_mem]

/-! ### Descriptors in flight -/

theorem Dev.modFlight_some (d : Dev) (i : Nat) (g : Flight → Flight) {f : Flight} (h : d.flight i = some f) : d.modFlight i g = d.setFlight i (g f) := by
  simp [Dev.modFlight, h]

theorem Dev.modFlight_none (d : Dev) (i : Nat) (g : Flight → Flight) (h : d.flight i = none) : d.modFlight i g = d := by
  simp [Dev.modFlight, h]

/-- Changing a descriptor in flight leaves all but the table of these as it is. -/
theorem Dev.modFlight_frame (d : Dev) (i : Nat) (g : Flight → Flight) :
    d.modFlight i g = { d with host := { d.host with flights := (d.modFlight i g).host.flights } } := by
  unfold Dev.modFlight
  split <;> rfl

@[simp] theorem Dev.get_modFlight (d : Dev) (i : Nat) (g : Flight → Flight) (f : Fld) : (d.modFlight i g).get f = d.get f := by
  rw [Dev.modFlight_frame]; rfl

@[simp] theorem Dev.modFlight_mem (d : Dev) (i : Nat) (g : Flight → Flight) : (d.modFlight i g).mem = d.mem := by
  rw [Dev.modFlight_frame]

/-- Work that has ended has its first status for good (R164). -/
theorem Flight.finish_ready (f : Flight) (st : Nat) (h : f.ready = true) : f.finish st = f := by
  simp [Flight.finish, h]

theorem Flight.finish_status (f : Flight) (st : Nat) (h : f.ready = false) :
    (f.finish st).ready = true ∧ (f.finish st).status = if f.status = stOK then st else f.status := by
  simp [Flight.finish, h]

/-! ### Free values -/

/-- Drawing free bytes moves the counter alone. -/
theorem Dev.freeBytes_frame (d : Dev) (n : Nat) : (d.freeBytes n).2 = { d with free := (d.freeBytes n).2.free } ∧ (d.freeBytes n).1.length = n := by
  simp [Dev.freeBytes]

/-! ### Events and records -/

@[simp] theorem Dev.sendMsix_mem (d : Dev) (f v : Nat) : (d.sendMsix f v).mem = d.mem := rfl
@[simp] theorem Dev.sendMsix_cells (d : Dev) (f v : Nat) : (d.sendMsix f v).cells = d.cells := rfl

@[simp] theorem Dev.hltEvent_mem (d : Dev) (f : Fld) : (d.hltEvent f).mem = d.mem := by unfold Dev.hltEvent; dsimp only; split <;> rfl
@[simp] theorem Dev.hltEvent_cells (d : Dev) (f : Fld) : (d.hltEvent f).cells = d.cells := by unfold Dev.hltEvent; dsimp only; split <;> rfl
@[simp] theorem Dev.fwEvent_mem (d : Dev) (f : Fld) : (d.fwEvent f).mem = d.mem := by unfold Dev.fwEvent; dsimp only; split <;> rfl
@[simp] theorem Dev.fwEvent_cells (d : Dev) (f : Fld) : (d.fwEvent f).cells = d.cells := by unfold Dev.fwEvent; dsimp only; split <;> rfl

@[simp] theorem Dev.logCommit_mem (d : Dev) (p l c a b : Nat) : (d.logCommit p l c a b).mem = d.mem := by unfold Dev.logCommit; split <;> rfl
@[simp] theorem Dev.logCommit_cells (d : Dev) (p l c a b : Nat) : (d.logCommit p l c a b).cells = d.cells := by unfold Dev.logCommit; split <;> rfl

@[simp] theorem Dev.platformEvent_mem (d : Dev) (s : Nat) (b : List Byte) : (d.platformEvent s b).mem = d.mem := by
  unfold Dev.platformEvent; dsimp only; repeat' split
  all_goals rfl

@[simp] theorem Dev.platformEvent_cells (d : Dev) (s : Nat) (b : List Byte) : (d.platformEvent s b).cells = d.cells := by
  unfold Dev.platformEvent; dsimp only; repeat' split
  all_goals rfl

@[simp] theorem Dev.failLogged_mem (d : Dev) (c : Nat) : (d.failLogged c).mem = d.mem := by
  unfold Dev.failLogged
  extract_lets p
  split
  · rfl
  · rw [Dev.put_mem, Dev.puts_mem]

@[simp] theorem Dev.failLogged_cells (d : Dev) (c : Nat) : (d.failLogged c).cells = d.cells := by
  unfold Dev.failLogged
  extract_lets p
  split
  · rfl
  · rw [Dev.put_cells, Dev.puts_cells]

@[simp] theorem Dev.failCommitted_mem (d : Dev) : d.failCommitted.mem = d.mem := by
  unfold Dev.failCommitted
  rw [Dev.logCommit_mem]

@[simp] theorem Dev.failCommitted_cells (d : Dev) : d.failCommitted.cells = d.cells := by
  unfold Dev.failCommitted
  rw [Dev.logCommit_cells]

@[simp] theorem Dev.failValues_mem (d : Dev) (r : FailRec) : (d.failValues r).2.mem = d.mem := by
  unfold Dev.failValues
  split <;> rfl

@[simp] theorem Dev.failTimed_mem (d : Dev) (r : FailRec) : (d.failTimed r).mem = d.mem := by
  unfold Dev.failTimed
  split <;> rfl

@[simp] theorem Dev.failValues_cells (d : Dev) (r : FailRec) : (d.failValues r).2.cells = d.cells := by
  unfold Dev.failValues
  split <;> rfl

@[simp] theorem Dev.failTimed_cells (d : Dev) (r : FailRec) : (d.failTimed r).cells = d.cells := by
  unfold Dev.failTimed
  split <;> rfl

@[simp] theorem Dev.failEntered_mem (d : Dev) (r : FailRec) : (d.failEntered r).mem = d.mem := by
  unfold Dev.failEntered
  rw [Dev.hltEvent_mem, Dev.platformEvent_mem, Dev.failCommitted_mem, Dev.failLogged_mem, Dev.failTimed_mem]

/-- A failure record changes no byte of memory. -/
@[simp] theorem Dev.failRec_mem (d : Dev) (r : FailRec) : (d.failRec r).mem = d.mem := by
  unfold Dev.failRec
  split
  · rfl
  · rw [Dev.failEntered_mem, Dev.failValues_mem]

@[simp] theorem Dev.failEntered_cells (d : Dev) (r : FailRec) : (d.failEntered r).cells = d.cells := by
  unfold Dev.failEntered
  rw [Dev.hltEvent_cells, Dev.platformEvent_cells, Dev.failCommitted_cells, Dev.failLogged_cells, Dev.failTimed_cells]

/-- A failure record changes no cell of a macro. -/
@[simp] theorem Dev.failRec_cells (d : Dev) (r : FailRec) : (d.failRec r).cells = d.cells := by
  unfold Dev.failRec
  split
  · rfl
  · rw [Dev.failEntered_cells, Dev.failValues_cells]

/-! ### Stores and reads -/

theorem Memory.wf_ite (c : Prop) [Decidable c] {m n : List Host.Cell} (hm : Memory.wf m = true) (hn : Memory.wf n = true) :
    Memory.wf (if c then m else n) = true := by
  split
  · exact hm
  · exact hn

@[simp] theorem Dev.taint_mem (d : Dev) (l : List Nat) (st : Nat) : (d.taint l st).mem = d.mem := by
  unfold Dev.taint
  exact foldl_keeps (fun e : Dev => e.mem = d.mem) _ (fun e i he => by rw [Dev.modFlight_mem]; exact he) _ _ rfl

@[simp] theorem Dev.stackError_mem (d : Dev) (s S g c b src : Nat) : (d.stackError s S g c b src).mem = d.mem := by
  unfold Dev.stackError
  rw [Dev.bump_mem, Dev.puts_mem]

@[simp] theorem Dev.unitLasting_mem (d : Dev) (s S g src : Nat) : (d.unitLasting s S g src).mem = d.mem := by
  unfold Dev.unitLasting Dev.stackRecord
  rw [Dev.failRec_mem]
  exact d.stackError_mem s S g 3 0 src

@[simp] theorem Dev.badAgain_mem (d : Dev) (w S src : Nat) (l : List Nat) : (d.badAgain w S src l).mem = d.mem := by
  unfold Dev.badAgain
  induction l generalizing d with
  | nil => rfl
  | cons i l ih => rw [List.foldl_cons, ih, Dev.unitLasting_mem]

theorem Dev.pokeUnit_wf (d : Dev) (w S u b : Nat) (v : Byte) (h : Memory.wf d.mem = true) : Memory.wf (d.pokeUnit w S u b v).mem = true := by
  have hc : ∀ (m : List Host.Cell) (s : Nat) (x : Byte), Memory.wf m = true → Memory.wf (d.cellMem m s S b x) = true :=
    fun m s x hm => Memory.wf_write (stackKey s S b) _ hm
  unfold Dev.pokeUnit
  split
  · have h1 := Memory.wf_ite (d.missing w S = some ((S % 12 + 1 + u) % 12)) h (hc d.mem (12 * w + (S % 12 + 1 + u) % 12) v h)
    exact Memory.wf_ite _ h1 (hc _ _ _ h1)
  · exact hc _ _ _ h

theorem Dev.pokeStripe_wf (d : Dev) (w S : Nat) (bytes : Table Nat) (h : Memory.wf d.mem = true) : Memory.wf (d.pokeStripe w S bytes).mem = true := by
  unfold Dev.pokeStripe
  exact foldl_keeps (fun d : Dev => Memory.wf d.mem = true) _ (fun d p hd => Dev.pokeUnit_wf d _ _ _ _ _ hd) _ _ h

theorem Dev.partialWrite_wf (d : Dev) (w S : Nat) (bytes : Table Nat) (h : Memory.wf d.mem = true) : Memory.wf (d.partialWrite w S bytes).mem = true := by
  unfold Dev.partialWrite
  extract_lets d1 d2
  exact Dev.pokeStripe_wf _ _ _ _ (by unfold d2 d1; rw [Dev.unitsWritten_mem, Dev.bumps_mem]; exact h)

theorem Memory.wf_writeEach (f : Nat → Nat) (g : Nat → Byte) (l : List Nat) (m : List Host.Cell) (h : Memory.wf m = true) :
    Memory.wf (l.foldl (fun m b => Memory.write m (f b) (g b)) m) = true :=
  foldl_keeps (fun m => Memory.wf m = true) _ (fun _ _ hm => Memory.wf_write _ _ hm) l m h

theorem Dev.fullStripeWrite_wf (d : Dev) (w S : Nat) (bytes : Table Nat) (h : Memory.wf d.mem = true) : Memory.wf (d.fullStripeWrite w S bytes).mem = true := by
  have h' : ∀ l, Memory.wf ((d.unitsWritten w l).pokeStripe w S bytes).mem = true := fun l => Dev.pokeStripe_wf _ _ _ _ (by rw [Dev.unitsWritten_mem]; exact h)
  unfold Dev.fullStripeWrite
  extract_lets gone units d1 d2 d3
  have h3 : Memory.wf d3.mem = true := by
    unfold d3
    split
    · rename_i l _ _
      dsimp only
      generalize List.range 256 = q
      exact Memory.wf_writeEach (fun b => stackKey (12 * w + l) S b) (fun b => d2.xorOthers w S b l ^^^ d2.lostByte (12 * w + l) S b) q d2.mem (h' _)
    · exact h' _
  exact h3

theorem Dev.closeSlot_wf (d : Dev) (t : Slot) (h : Memory.wf d.mem = true) : Memory.wf (d.closeSlot t).mem = true := by
  unfold Dev.closeSlot
  extract_lets w1 d1
  have h1 : Memory.wf d1.mem = true := h
  split
  · rw [Dev.taint_mem]; exact h1
  · split
    · exact Dev.fullStripeWrite_wf _ _ _ _ h1
    · split
      · exact Dev.partialWrite_wf _ _ _ _ h1
      · rw [Dev.taint_mem, Dev.bump_mem, Dev.badAgain_mem]; exact h1

@[simp] theorem Dev.await_mem (d : Dev) (w S : Nat) (k : WallWork) : (d.await w S k).mem = d.mem := by
  unfold Dev.await
  split <;> rfl

theorem Dev.askClose_wf (d : Dev) (t : Slot) (h : Memory.wf d.mem = true) : Memory.wf (d.askClose t).mem = true := by
  unfold Dev.askClose
  split
  · rw [Dev.await_mem]; exact h
  · exact Dev.closeSlot_wf d t h

theorem Dev.stripeWrite_wf (d : Dev) (fl : Option Nat) (w S : Nat) (bytes : Table Nat) (h : Memory.wf d.mem = true) :
    Memory.wf (d.stripeWrite fl w S bytes).mem = true := by
  unfold Dev.stripeWrite
  split
  · exact Dev.fullStripeWrite_wf _ _ _ _ h
  · dsimp only
    split
    · split
      · exact Dev.closeSlot_wf _ _ h
      · split
        · exact Dev.closeSlot_wf _ _ h
        · exact h
    · have hd : ∀ l : List Slot, Memory.wf (match l with
          | first :: _ => (d.closeSlot first).bump (F.MEM_WALL_CNT_ASM_EVICT first.wall) 1
          | [] => d).mem = true := by
        intro l; cases l with
        | nil => exact h
        | cons t l => exact Dev.closeSlot_wf d t h
      repeat' split
      all_goals first
        | exact h
        | exact Dev.closeSlot_wf _ _ h
        | exact Dev.closeSlot_wf _ _ (Dev.closeSlot_wf _ _ h)

theorem Dev.wallWrite_wf (d : Dev) (held : List Nat) (fl : Option Nat) (w off : Nat) (bytes : List Byte) (h : Memory.wf d.mem = true) :
    Memory.wf (d.wallWrite held fl w off bytes).mem = true := by
  unfold Dev.wallWrite
  extract_lets d1
  split
  · refine foldl_keeps (fun d : Dev => Memory.wf d.mem = true) _ (fun d S hd => ?_) _ _ h
    dsimp only
    split
    · rw [Dev.await_mem]; exact hd
    · exact Dev.stripeWrite_wf d _ _ _ _ hd
  · exact foldl_keeps (fun d : Dev => Memory.wf d.mem = true) _ (fun d i hd => Dev.pokeUnit_wf d _ _ _ _ _ hd) _ _ (by rw [Dev.unitsWritten_mem]; exact h)

@[simp] theorem Dev.bumpRmw_mem (d : Dev) (a : Nat) : (d.bumpRmw a).mem = d.mem := by
  unfold Dev.bumpRmw
  split <;> rfl

@[simp] theorem Dev.countRmw_mem (d : Dev) (a n : Nat) : (d.countRmw a n).mem = d.mem := by
  unfold Dev.countRmw
  dsimp only
  repeat' split
  all_goals simp only [Dev.bumpRmw_mem]

@[simp] theorem Dev.bankWrite_mem (d : Dev) (a : Nat) (bytes : List Byte) : (d.bankWrite a bytes).mem = Memory.writes d.mem a bytes := rfl

/-- A store anywhere keeps the canonical form. -/
theorem Dev.storeHeld_wf (d : Dev) (held : List Nat) (fl : Option Nat) (a : Nat) (bytes : List Byte) (h : Memory.wf d.mem = true) :
    Memory.wf (d.storeHeld held fl a bytes).mem = true := by
  unfold Dev.storeHeld
  split
  · exact h
  · split
    · dsimp only
      split
      · exact Dev.wallWrite_wf _ _ _ _ _ _ h
      · split
        · exact Dev.wallWrite_wf _ _ _ _ _ _ (Dev.wallWrite_wf _ _ _ _ _ _ h)
        · exact Dev.wallWrite_wf _ _ _ _ _ _ h
    · exact h
    · rw [Dev.countRmw_mem, Dev.bankWrite_mem]; exact Memory.wf_writes _ _ h

theorem Dev.store_wf (d : Dev) (fl : Option Nat) (a : Nat) (bytes : List Byte) (h : Memory.wf d.mem = true) : Memory.wf (d.store fl a bytes).mem = true :=
  d.storeHeld_wf [] fl a bytes h

theorem Dev.readUnits_mem (d : Dev) (w S : Nat) (us : List Nat) : (d.readUnits w S us).mem = d.mem := by
  unfold Dev.readUnits
  dsimp only
  split
  · rw [Dev.bumps_mem]; rfl
  · rw [Dev.bumps_mem]

theorem Dev.touch_wf (d : Dev) (a n : Nat) (h : Memory.wf d.mem = true) : Memory.wf (d.touch a n).mem = true := by
  unfold Dev.touch
  split
  · split
    · exact h
    · refine foldl_keeps (fun d : Dev => Memory.wf d.mem = true) _ (fun d S hd => ?_) _ _ h
      dsimp only
      rw [Dev.readUnits_mem]
      split
      · exact Dev.askClose_wf _ _ hd
      · exact hd
  · exact h
  · exact h

/-! ### A store outside the walls -/

/-- A store to SRAM: its bytes are stored, every other byte is as before, and no cell of a macro changes. -/
theorem Dev.store_sram (d : Dev) (fl : Option Nat) (a : Nat) (bytes : List Byte) (hw : ∀ w off, d.region a ≠ .wall w off) (hu : d.region a ≠ .unmapped)
    (h : Memory.wf d.mem = true) :
    d.store fl a bytes = (if bytes = [] then d else (d.bankWrite a bytes).countRmw a bytes.length) ∧
      (∀ i, i < bytes.length → Memory.read (d.store fl a bytes).mem (a + i) = nth 0 bytes i) ∧
      (∀ b, b < a ∨ a + bytes.length ≤ b → Memory.read (d.store fl a bytes).mem b = Memory.read d.mem b) := by
  have e : d.store fl a bytes = if bytes = [] then d else (d.bankWrite a bytes).countRmw a bytes.length := by
    unfold Dev.store Dev.storeHeld
    split
    · rfl
    · split
      · exact absurd ‹_› (hw _ _)
      · exact absurd ‹_› hu
      · rfl
  have em : (d.store fl a bytes).mem = Memory.writes d.mem a bytes := by
    rw [e]
    split
    · rename_i hb; rw [hb]; rfl
    · rw [Dev.countRmw_mem, Dev.bankWrite_mem]
  refine ⟨e, fun i hi => ?_, fun b hb => ?_⟩
  · rw [em]; exact Memory.read_writes_inside a bytes i h hi
  · rw [em]; exact Memory.read_writes_other d.mem a bytes b hb

end Sys2Proof.Machine
end

