-- ==== Sys2Proof/Laws/Dispatch.lean ====
section
/-! SUPPORT. Sys2Proof/Laws/Dispatch.lean: how a command reaches its meaning: the queue, and the dispatch of the first descriptor of a context. -/
namespace Sys2Proof.Machine

open Sys2Proof Sys2Proof.Safety

/-- A command at the front acts on the rest of the queue. -/
theorem step_cons (s : State) (c : Instr) (rest : List Instr) (h : s.pending = c :: rest) : step s = exec c { s with pending := rest } := by
  simp [step, h]

/-- The first descriptor of a context whose turn it is does what its opcode says, once it is out of the queue and in flight. -/
theorem dispatchFront_taken (s : State) (c : Nat) (q : Fetched) (want : Fetched → Bool) (h : Turn s c q) (hw : want q = true) :
    s.d.dispatchFront s.z c want = dispatchBody s.z (taken s c q) s.d.host.nextId (flightOf s c q) := by
  obtain ⟨h1, h2, h3⟩ := h
  unfold Dev.dispatchFront
  simp only [h1, hw, h2, Bool.not_true, Bool.false_or, ne_eq, not_true_eq_false, decide_false]
  simp only [Bool.false_eq_true, if_false]
  unfold Dev.dispatch
  simp only [h3, Bool.false_eq_true, if_false]
  rfl

/-- Where the first descriptor is not of the kind the command takes, or it is not the context's turn, nothing happens. -/
theorem dispatchFront_idle (z : Fixed) (d : Dev) (c : Nat) (want : Fetched → Bool)
    (h : ∀ q, d.canDispatch z c = some q → want q = false ∨ d.nextTurn z ≠ some c) : d.dispatchFront z c want = d := by
  unfold Dev.dispatchFront
  split
  · rfl
  · rename_i q hq
    obtain hw | ht := h q hq
    · simp [hw]
    · simp [ht]

end Sys2Proof.Machine
end

