-- ==== Sys2Proof/Laws/PerInstr.lean ====
section
/-! SUPPORT. Sys2Proof/Laws/PerInstr.lean: a well-formed command names no address past the 48-bit address space, one lemma per command. -/
namespace Sys2Proof

/-- The addresses and offsets that a command carries. -/
def Instr.addresses : Instr → List Nat
  | .registerWrite _ off _ _ | .bar0AccessError _ _ off _ _ | .halfWriteStage _ off _ | .halfWriteCommit _ off _ | .halfReadLatch _ off _ => [off]
  | .doorbell _ page off _ => [page, off]
  | .bar4Access _ off _ _ => [off]
  | .atomicAdd _ _ _ a _ _ _ | .atomicSwap _ _ _ a _ _ _ | .stackRead a _ _ _ _ _ _ _ | .wallWrite a _ _ _ _ => [a]
  | _ => []

theorem Requester.barSize_le (q : Requester) : q.barSize ≤ 2 ^ 27 := by
  cases q with
  | fn f => simp only [Requester.barSize]; split <;> omega
  | proc k => exact Nat.le_refl _
  | testEngine => exact Nat.le_refl _

theorem doorbellPages_le (f : Fin 64) : doorbellPages f ≤ 16384 := by
  unfold doorbellPages
  split <;> omega

end Sys2Proof

namespace Sys2Proof.Laws.Bounded

open Sys2Proof

/-- What is said of each command: every address it carries lies in the 48-bit address space. -/
def Statement (i : Instr) : Prop := i.wellFormed = true → ∀ a ∈ i.addresses, a < 2 ^ 48

theorem registerWrite q off size8 val : Statement (.registerWrite q off size8 val) := by
  intro h a ha
  have := q.barSize_le
  simp only [Instr.wellFormed, decide_eq_true_eq] at h
  simp only [Instr.addresses, List.mem_singleton] at ha
  omega

theorem bar0AccessError q read off len whole : Statement (.bar0AccessError q read off len whole) := by
  intro h a ha
  have := q.barSize_le
  simp only [Instr.wellFormed, Bool.and_eq_true, decide_eq_true_eq] at h
  simp only [Instr.addresses, List.mem_singleton] at ha
  omega

theorem halfWriteStage q off val : Statement (.halfWriteStage q off val) := by
  intro h a ha
  have := q.barSize_le
  simp only [Instr.wellFormed, Bool.and_eq_true, decide_eq_true_eq] at h
  simp only [Instr.addresses, List.mem_singleton] at ha
  omega

theorem halfWriteCommit q off val : Statement (.halfWriteCommit q off val) := by
  intro h a ha
  have := q.barSize_le
  simp only [Instr.wellFormed, Bool.and_eq_true, decide_eq_true_eq] at h
  simp only [Instr.addresses, List.mem_singleton] at ha
  omega

theorem halfReadLatch q off size8 : Statement (.halfReadLatch q off size8) := by
  intro h a ha
  have := q.barSize_le
  simp only [Instr.wellFormed, decide_eq_true_eq] at h
  simp only [Instr.addresses, List.mem_singleton] at ha
  omega

theorem enWrite q u v : Statement (.enWrite q u v) := fun _ _ h => nomatch h

theorem startingComplete u ok lanes ms : Statement (.startingComplete u ok lanes ms) := fun _ _ h => nomatch h

theorem startTimeLimit u : Statement (.startTimeLimit u) := fun _ _ h => nomatch h

theorem safePointReached u : Statement (.safePointReached u) := fun _ _ h => nomatch h

theorem ctxCommit q c : Statement (.ctxCommit q c) := fun _ _ h => nomatch h

theorem setupLockClose q : Statement (.setupLockClose q) := fun _ _ h => nomatch h

theorem layoutWrite q v : Statement (.layoutWrite q v) := fun _ _ h => nomatch h

theorem ctxReset q c : Statement (.ctxReset q c) := fun _ _ h => nomatch h

theorem doorbell f page off acc : Statement (.doorbell f page off acc) := by
  intro h a ha
  have := doorbellPages_le f
  simp only [Instr.wellFormed, Bool.and_eq_true, decide_eq_true_eq] at h
  simp only [Instr.addresses, List.mem_cons, List.not_mem_nil, or_false] at ha
  omega

theorem shadowReadReturn c tail head : Statement (.shadowReadReturn c tail head) := fun _ _ h => nomatch h

theorem descriptorFetchReturn c ds : Statement (.descriptorFetchReturn c ds) := fun _ _ h => nomatch h

theorem descriptorDispatch c data : Statement (.descriptorDispatch c data) := fun _ _ h => nomatch h

theorem descriptorComplete c id ns acts : Statement (.descriptorComplete c id ns acts) := fun _ _ h => nomatch h

theorem msixModerationExpiry c : Statement (.msixModerationExpiry c) := fun _ _ h => nomatch h

theorem hostReadError c k : Statement (.hostReadError c k) := fun _ _ h => nomatch h

theorem completionWriteRejected c id : Statement (.completionWriteRejected c id) := fun _ _ h => nomatch h

theorem qsAdmit q : Statement (.qsAdmit q) := fun _ _ h => nomatch h

theorem qsEvict q c ns : Statement (.qsEvict q c ns) := fun _ _ h => nomatch h

theorem evictionComplete c : Statement (.evictionComplete c) := fun _ _ h => nomatch h

theorem bar4Access f off len data : Statement (.bar4Access f off len data) := by
  intro h a ha
  simp only [Instr.wellFormed, decide_eq_true_eq] at h
  simp only [Instr.addresses, List.mem_singleton] at ha
  omega

theorem functionLevelReset f : Statement (.functionLevelReset f) := fun _ _ h => nomatch h

theorem d3hotEntry f : Statement (.d3hotEntry f) := fun _ _ h => nomatch h

theorem d0Return f : Statement (.d0Return f) := fun _ _ h => nomatch h

theorem matrix c : Statement (.matrix c) := fun _ _ h => nomatch h

theorem weightWrite c : Statement (.weightWrite c) := fun _ _ h => nomatch h

theorem bankSwap c : Statement (.bankSwap c) := fun _ _ h => nomatch h

theorem copy c data : Statement (.copy c data) := fun _ _ h => nomatch h

theorem fill c : Statement (.fill c) := fun _ _ h => nomatch h

theorem convert c : Statement (.convert c) := fun _ _ h => nomatch h

theorem stats c : Statement (.stats c) := fun _ _ h => nomatch h

theorem planLoad c : Statement (.planLoad c) := fun _ _ h => nomatch h

theorem planCancel c : Statement (.planCancel c) := fun _ _ h => nomatch h

theorem courseWait c : Statement (.courseWait c) := fun _ _ h => nomatch h

theorem fence c : Statement (.fence c) := fun _ _ h => nomatch h

theorem eventWrite c : Statement (.eventWrite c) := fun _ _ h => nomatch h

theorem eventAdd c : Statement (.eventAdd c) := fun _ _ h => nomatch h

theorem eventSignal c : Statement (.eventSignal c) := fun _ _ h => nomatch h

theorem jobJoin c : Statement (.jobJoin c) := fun _ _ h => nomatch h

theorem jobLeave c : Statement (.jobLeave c) := fun _ _ h => nomatch h

theorem checkpointSaved c : Statement (.checkpointSaved c) := fun _ _ h => nomatch h

theorem checkpointRestored c : Statement (.checkpointRestored c) := fun _ _ h => nomatch h

theorem macroVector n m v : Statement (.macroVector n m v) := fun _ _ h => nomatch h

theorem pvRowAttemptEnd n m pass : Statement (.pvRowAttemptEnd n m pass) := fun _ _ h => nomatch h

theorem singlePassWriteDone n m firstFails rewriteFails : Statement (.singlePassWriteDone n m firstFails rewriteFails) := fun _ _ h => nomatch h

theorem bankSwapApply n m : Statement (.bankSwapApply n m) := fun _ _ h => nomatch h

theorem chunkPromote n row col : Statement (.chunkPromote n row col) := fun _ _ h => nomatch h

theorem totalsArrive n faultAt : Statement (.totalsArrive n faultAt) := fun _ _ h => nomatch h

theorem blockPassEnd n : Statement (.blockPassEnd n) := fun _ _ h => nomatch h

theorem spillResume n : Statement (.spillResume n) := fun _ _ h => nomatch h

theorem scaleArrive n operand line group : Statement (.scaleArrive n operand line group) := fun _ _ h => nomatch h

theorem blockDrain n : Statement (.blockDrain n) := fun _ _ h => nomatch h

theorem tileReplay n : Statement (.tileReplay n) := fun _ _ h => nomatch h

theorem tileStart op dr : Statement (.tileStart op dr) := fun _ _ h => nomatch h

theorem haloFetch op dr : Statement (.haloFetch op dr) := fun _ _ h => nomatch h

theorem streamingLoadWrite n : Statement (.streamingLoadWrite n) := fun _ _ h => nomatch h

theorem level0Command q n off : Statement (.level0Command q n off) := fun _ _ h => nomatch h

theorem l0OnlyChange q n v : Statement (.l0OnlyChange q n v) := fun _ _ h => nomatch h

theorem deckDraw op dr : Statement (.deckDraw op dr) := fun _ _ h => nomatch h

theorem tileClaim op dr : Statement (.tileClaim op dr) := fun _ _ h => nomatch h

theorem tileFinish op dr : Statement (.tileFinish op dr) := fun _ _ h => nomatch h

theorem stealSearch op dr : Statement (.stealSearch op dr) := fun _ _ h => nomatch h

theorem tileReturn op dr : Statement (.tileReturn op dr) := fun _ _ h => nomatch h

theorem stallTimeout op : Statement (.stallTimeout op) := fun _ _ h => nomatch h

theorem bankAccess arr bank claims ecc : Statement (.bankAccess arr bank claims ecc) := fun _ _ h => nomatch h

theorem correctionWriteback arr bank : Statement (.correctionWriteback arr bank) := fun _ _ h => nomatch h

theorem atomicAdd who proc0 fl a w v ecc : Statement (.atomicAdd who proc0 fl a w v ecc) := by
  intro h a' ha
  simp only [Instr.wellFormed, Bool.and_eq_true, decide_eq_true_eq] at h
  simp only [Instr.addresses, List.mem_singleton] at ha
  omega

theorem atomicSwap who proc0 fl a w v ecc : Statement (.atomicSwap who proc0 fl a w v ecc) := by
  intro h a' ha
  simp only [Instr.wellFormed, Bool.and_eq_true, decide_eq_true_eq] at h
  simp only [Instr.addresses, List.mem_singleton] at ha
  omega

theorem poolPatrolRead die word ecc : Statement (.poolPatrolRead die word ecc) := fun _ _ h => nomatch h

theorem borrowCopyDone arr spare : Statement (.borrowCopyDone arr spare) := fun _ _ h => nomatch h

theorem vaultWipeRequest q : Statement (.vaultWipeRequest q) := fun _ _ h => nomatch h

theorem vaultWipeEnd die ok bank row : Statement (.vaultWipeEnd die ok bank row) := fun _ _ h => nomatch h

theorem stackRead a part fl source granule ecc other severe : Statement (.stackRead a part fl source granule ecc other severe) := by
  intro h a' ha
  simp only [Instr.wellFormed, Bool.and_eq_true, decide_eq_true_eq] at h
  simp only [Instr.addresses, List.mem_singleton] at ha
  omega

theorem wallWrite a bytes part fl held : Statement (.wallWrite a bytes part fl held) := by
  intro h a' ha
  simp only [Instr.wellFormed, Bool.and_eq_true, decide_eq_true_eq] at h
  simp only [Instr.addresses, List.mem_singleton] at ha
  omega

theorem assemblySlotTimeout w S : Statement (.assemblySlotTimeout w S) := fun _ _ h => nomatch h

theorem stripeLockGrant w S cycles : Statement (.stripeLockGrant w S cycles) := fun _ _ h => nomatch h

theorem stackLinkParityError st reissueFails : Statement (.stackLinkParityError st reissueFails) := fun _ _ h => nomatch h

theorem rebuildStep w : Statement (.rebuildStep w) := fun _ _ h => nomatch h

theorem stackTempRead st t : Statement (.stackTempRead st t) := fun _ _ h => nomatch h

theorem stackPatrolRead st S granule ecc other severe : Statement (.stackPatrolRead st S granule ecc other severe) := fun _ _ h => nomatch h

theorem portLinkDown p : Statement (.portLinkDown p) := fun _ _ h => nomatch h

theorem portLinkUp p : Statement (.portLinkUp p) := fun _ _ h => nomatch h

theorem ethernetFrameDropped p fr : Statement (.ethernetFrameDropped p fr) := fun _ _ h => nomatch h

theorem syncReceived p ns fr gm err converged : Statement (.syncReceived p ns fr gm err converged) := fun _ _ h => nomatch h

theorem syncTimeout ns : Statement (.syncTimeout ns) := fun _ _ h => nomatch h

theorem slavePortMove : Statement .slavePortMove := fun _ _ h => nomatch h

theorem timeLost ns : Statement (.timeLost ns) := fun _ _ h => nomatch h

theorem ppsEdge ns : Statement (.ppsEdge ns) := fun _ _ h => nomatch h

theorem ppsAbsent ns : Statement (.ppsAbsent ns) := fun _ _ h => nomatch h

theorem idleLenWrite q v : Statement (.idleLenWrite q v) := fun _ _ h => nomatch h

theorem courseBoundary : Statement .courseBoundary := fun _ _ h => nomatch h

theorem slotSend slot : Statement (.slotSend slot) := fun _ _ h => nomatch h

theorem dataFrame p fr ns : Statement (.dataFrame p fr ns) := fun _ _ h => nomatch h

theorem ackFrame p fr ns : Statement (.ackFrame p fr ns) := fun _ _ h => nomatch h

theorem ackDeadline course slot : Statement (.ackDeadline course slot) := fun _ _ h => nomatch h

theorem repairSlot p : Statement (.repairSlot p) := fun _ _ h => nomatch h

theorem receiveDeadline ix : Statement (.receiveDeadline ix) := fun _ _ h => nomatch h

theorem statusWordSend : Statement .statusWordSend := fun _ _ h => nomatch h

theorem statusFrame p fr ns : Statement (.statusFrame p fr ns) := fun _ _ h => nomatch h

theorem statusMissLimit m : Statement (.statusMissLimit m) := fun _ _ h => nomatch h

theorem keystoneWordSend : Statement .keystoneWordSend := fun _ _ h => nomatch h

theorem keystoneFrame p fr ns : Statement (.keystoneFrame p fr ns) := fun _ _ h => nomatch h

theorem keystoneTakeover : Statement .keystoneTakeover := fun _ _ h => nomatch h

theorem perstDeassert flashOk fuseBad : Statement (.perstDeassert flashOk fuseBad) := fun _ _ h => nomatch h

theorem perstAssert : Statement .perstAssert := fun _ _ h => nomatch h

theorem load q : Statement (.load q) := fun _ _ h => nomatch h

theorem loadLoader q : Statement (.loadLoader q) := fun _ _ h => nomatch h

theorem imageFetchDone data : Statement (.imageFetchDone data) := fun _ _ h => nomatch h

theorem imageVerifyDone : Statement .imageVerifyDone := fun _ _ h => nomatch h

theorem release q : Statement (.release q) := fun _ _ h => nomatch h

theorem fwStartDone sup : Statement (.fwStartDone sup) := fun _ _ h => nomatch h

theorem trainingDone : Statement .trainingDone := fun _ _ h => nomatch h

theorem clearingDone : Statement .clearingDone := fun _ _ h => nomatch h

theorem lcAdvance q img : Statement (.lcAdvance q img) := fun _ _ h => nomatch h

theorem revokeSlot q img : Statement (.revokeSlot q img) := fun _ _ h => nomatch h

theorem svnAdvance q img : Statement (.svnAdvance q img) := fun _ _ h => nomatch h

theorem burnCandidates q img : Statement (.burnCandidates q img) := fun _ _ h => nomatch h

theorem flashWrite q img flashOk : Statement (.flashWrite q img flashOk) := fun _ _ h => nomatch h

theorem debugUnlock q img : Statement (.debugUnlock q img) := fun _ _ h => nomatch h

theorem fuseBurn mask : Statement (.fuseBurn mask) := fun _ _ h => nomatch h

theorem factoryTestCommand cmd : Statement (.factoryTestCommand cmd) := fun _ _ h => nomatch h

theorem procRestart q k : Statement (.procRestart q k) := fun _ _ h => nomatch h

theorem watchdogExpiry k ns : Statement (.watchdogExpiry k ns) := fun _ _ h => nomatch h

theorem logEnable q v : Statement (.logEnable q v) := fun _ _ h => nomatch h

theorem logRecordCommit proc level code a0 a1 dropped : Statement (.logRecordCommit proc level code a0 a1 dropped) := fun _ _ h => nomatch h

theorem tamperDetect live : Statement (.tamperDetect live) := fun _ _ h => nomatch h

theorem debugPortAccess : Statement .debugPortAccess := fun _ _ h => nomatch h

theorem getMeasurements via index sign : Statement (.getMeasurements via index sign) := fun _ _ h => nomatch h

theorem getCertificate via slot off len : Statement (.getCertificate via slot off len) := fun _ _ h => nomatch h

theorem challenge via slot nonce : Statement (.challenge via slot nonce) := fun _ _ h => nomatch h

theorem keyExchange via p : Statement (.keyExchange via p) := fun _ _ h => nomatch h

theorem ideKeyProgram via p stream : Statement (.ideKeyProgram via p stream) := fun _ _ h => nomatch h

theorem capWrite q v : Statement (.capWrite q v) := fun _ _ h => nomatch h

theorem reqOpWrite q die v : Statement (.reqOpWrite q die v) := fun _ _ h => nomatch h

theorem opRampDone die : Statement (.opRampDone die) := fun _ _ h => nomatch h

theorem dutyPeriodEnd mean lost : Statement (.dutyPeriodEnd mean lost) := fun _ _ h => nomatch h

theorem powerWindowEnd eIn eIdle acts other stretch : Statement (.powerWindowEnd eIn eIdle acts other stretch) := fun _ _ h => nomatch h

theorem droopTrip die : Statement (.droopTrip die) := fun _ _ h => nomatch h

theorem droopRecover die cycles : Statement (.droopRecover die cycles) := fun _ _ h => nomatch h

theorem thermalSensorRead t : Statement (.thermalSensorRead t) := fun _ _ h => nomatch h

theorem thermalLoop : Statement .thermalLoop := fun _ _ h => nomatch h

theorem macroSliceStart n : Statement (.macroSliceStart n) := fun _ _ h => nomatch h

theorem sliceCopyDone n lost : Statement (.sliceCopyDone n lost) := fun _ _ h => nomatch h

theorem sliceTestDone n fails : Statement (.sliceTestDone n fails) := fun _ _ h => nomatch h

theorem sliceCopyBackDone n lost : Statement (.sliceCopyBackDone n lost) := fun _ _ h => nomatch h

theorem bankSliceStart arr bank : Statement (.bankSliceStart arr bank) := fun _ _ h => nomatch h

theorem knownSumCheck n m odd idle found : Statement (.knownSumCheck n m odd idle found) := fun _ _ h => nomatch h

theorem teMacroBank factory cmd : Statement (.teMacroBank factory cmd) := fun _ _ h => nomatch h

theorem teScratchpadBank factory cmd : Statement (.teScratchpadBank factory cmd) := fun _ _ h => nomatch h

theorem teDiePoolBank factory cmd : Statement (.teDiePoolBank factory cmd) := fun _ _ h => nomatch h

theorem teStackUnits factory cmd : Statement (.teStackUnits factory cmd) := fun _ _ h => nomatch h

theorem teLevel0Command factory cmd : Statement (.teLevel0Command factory cmd) := fun _ _ h => nomatch h

theorem auxPowerUp straps : Statement (.auxPowerUp straps) := fun _ _ h => nomatch h

theorem auxPowerLoss : Statement .auxPowerLoss := fun _ _ h => nomatch h

theorem pwrEnAssert : Statement .pwrEnAssert := fun _ _ h => nomatch h

theorem railUpDone : Statement .railUpDone := fun _ _ h => nomatch h

theorem railUpTimeout : Statement .railUpTimeout := fun _ _ h => nomatch h

theorem pwrEnDeassert : Statement .pwrEnDeassert := fun _ _ h => nomatch h

theorem vinUndervoltage : Statement .vinUndervoltage := fun _ _ h => nomatch h

theorem vinOvervoltage : Statement .vinOvervoltage := fun _ _ h => nomatch h

theorem overcurrent : Statement .overcurrent := fun _ _ h => nomatch h

theorem stageFault : Statement .stageFault := fun _ _ h => nomatch h

theorem faultRelease : Statement .faultRelease := fun _ _ h => nomatch h

theorem setEndpointId eid : Statement (.setEndpointId eid) := fun _ _ h => nomatch h

theorem getSensorReading id : Statement (.getSensorReading id) := fun _ _ h => nomatch h

theorem getStateSensorReadings id : Statement (.getStateSensorReadings id) := fun _ _ h => nomatch h

theorem setNumericEffecterValue id v : Statement (.setNumericEffecterValue id v) := fun _ _ h => nomatch h

theorem getNumericEffecterValue id : Statement (.getNumericEffecterValue id) := fun _ _ h => nomatch h

theorem setEventReceiver eid : Statement (.setEventReceiver eid) := fun _ _ h => nomatch h

theorem pollForPlatformEvent : Statement .pollForPlatformEvent := fun _ _ h => nomatch h

theorem platformEventSend : Statement .platformEventSend := fun _ _ h => nomatch h

theorem pldmUnsupported : Statement .pldmUnsupported := fun _ _ h => nomatch h

theorem sensorRefresh inlet stage vin current : Statement (.sensorRefresh inlet stage vin current) := fun _ _ h => nomatch h

theorem configurationRequest q : Statement (.configurationRequest q) := fun _ _ h => nomatch h

theorem pcieLinkTrained gen width flit : Statement (.pcieLinkTrained gen width flit) := fun _ _ h => nomatch h

theorem vinRise : Statement .vinRise := fun _ _ h => nomatch h

theorem gptpMessage p fr m : Statement (.gptpMessage p fr m) := fun _ _ h => nomatch h

theorem bankSliceTestDone arr spare fail : Statement (.bankSliceTestDone arr spare fail) := fun _ _ h => nomatch h

theorem teCommandEnd fails : Statement (.teCommandEnd fails) := fun _ _ h => nomatch h

theorem bootClearDone cells bad : Statement (.bootClearDone cells bad) := fun _ _ h => nomatch h

end Sys2Proof.Laws.Bounded
end

