-- ==== Sys2Proof/Tests/Slice0.lean ====
section
/-! SUPPORT. Sys2Proof/Tests/Slice0.lean: the author's tests: ill-formed commands, worked examples of the spec, and states that meet the hypotheses of every statement. -/
namespace Sys2Proof.Tests

set_option Elab.async false

open Sys2Proof Sys2Proof.Machine Sys2Proof.Safety

/-! ### Commands that the outside cannot send (WellFormed) -/

theorem test_wf_register_write_past_bar0 : Instr.wellFormed (.registerWrite (.fn 1) 0xFFFC true 0) = false ∧
    Instr.wellFormed (.registerWrite (.fn 0) 0xFFFC true 0) = true := by decide

theorem test_wf_access_error_that_is_none : Instr.wellFormed (.bar0AccessError (.fn 0) true 8 4 true) = false ∧
    Instr.wellFormed (.bar0AccessError (.fn 0) true 2 4 true) = true := by decide

theorem test_wf_halves : Instr.wellFormed (.halfWriteStage (.fn 0) 4 0) = false ∧ Instr.wellFormed (.halfWriteCommit (.fn 0) 8 0) = false ∧
    Instr.wellFormed (.halfReadLatch (.fn 3) 0x10000 false) = false := by decide

theorem test_wf_host_accesses : Instr.wellFormed (.doorbell 1 256 0 (.write 4)) = false ∧ Instr.wellFormed (.doorbell 0 0 4094 (.read 4)) = false ∧
    Instr.wellFormed (.descriptorFetchReturn 0 (List.replicate 9 0)) = false ∧ Instr.wellFormed (.bar4Access 0 (2 ^ 39) 4 none) = false := by decide

theorem test_wf_banks : Instr.wellFormed (.bankAccess (.scratch 0) 16 [] .clean) = false ∧ Instr.wellFormed (.correctionWriteback .deckHome 64) = false ∧
    Instr.wellFormed (.bankSliceStart (.scratch 0) 16) = false ∧ Instr.wellFormed (.borrowCopyDone .deckHome 0) = false ∧
    Instr.wellFormed (.bankSliceTestDone (.scratch 0) 1 none) = false ∧ Instr.wellFormed (.bootClearDone [(.scratch 3, 180, 0, 0)] []) = false := by decide

theorem test_wf_claim_rows : Instr.wellFormed (.bankAccess (.scratch 0) 0 [⟨0, 1024, .read, none, false, none⟩] .clean) = false ∧
    Instr.wellFormed (.bankAccess (.scratch 0) 0 [⟨0, 0, .write [(32, 0)], none, false, none⟩] .clean) = false ∧
    Instr.wellFormed (.bankAccess (.scratch 0) 0 [⟨0, 0, .atomic true .w4 0 4294967296, none, false, none⟩] .clean) = false := by decide

theorem test_wf_addresses : Instr.wellFormed (.atomicAdd ⟨0, none⟩ false none (2 ^ 48) .w8 0 .clean) = false ∧
    Instr.wellFormed (.atomicSwap ⟨0, none⟩ false none 0 .w4 4294967296 .clean) = false ∧ Instr.wellFormed (.stackRead 4 none none 0 0 .clean none false) = false ∧
    Instr.wellFormed (.wallWrite (2 ^ 48 - 1) [0, 0] none none []) = false := by decide

theorem test_wf_test_engine_targets : Instr.wellFormed (.teMacroBank false 2) = false ∧ Instr.wellFormed (.teScratchpadBank false 1) = false ∧
    Instr.wellFormed (.teDiePoolBank false 4) = false ∧ Instr.wellFormed (.teStackUnits false 3) = false ∧
    Instr.wellFormed (.teLevel0Command false 1) = false := by decide

theorem test_wf_processors_and_link : Instr.wellFormed (.logRecordCommit 6 0 0 0 0 false) = false ∧ Instr.wellFormed (.pcieLinkTrained 0 16 true) = false ∧
    Instr.wellFormed (.pcieLinkTrained 5 12 false) = false := by decide

/-! ### Worked examples of the spec -/

/-- The example after R40: the weight -77 in 8-bit slot 3 sets the N bits of 77. -/
theorem test_row_image : rowImage 4 8 (179 * 2 ^ 24) = (2 ^ 152 + 2 ^ 154 + 2 ^ 155 + 2 ^ 158, 0) := by decide +kernel

/-- The example after R46: weights -5, 7 and -8 against activations 3, -2 and 5, after each of the four planes. -/
theorem test_accumulator_planes :
    (List.range 5).map (accAfter [(2 ^ 128 + 2 ^ 130, 3), (7, 14), (2 ^ 131, 5)] 0 512 4 0 4 true) = [0, -13, -9, -13, -69] := by decide +kernel

/-- The example after R84: the first block, with its other nine elements zero. -/
theorem test_block_conversion :
    blockConvert 8 6 150 ([0x40D00000, 0xBFA00000, 0x3E99999A, 0xBC23D70A, 0, 0x80000000, 0x40300000].map (unpack binary32)) =
      (⟨0x81, [0x68, 0x94, 0x04, 0, 0, 0, 0x2C]⟩, { flushed := 1 }) := by decide +kernel

/-- The example after R86: the second block is shifted by 3, and its element 1 is flushed. -/
theorem test_block_pairing : pairBlocks 8 ⟨0x81, [0x68, 0]⟩ ⟨0x7E, [0x2C, 0x85]⟩ = (⟨0x81, [104, 0, 5, 0]⟩, { flushed := 1 }) := by decide +kernel

/-- The example after R101: INT4 with a scale of 0.25. -/
theorem test_quantise :
    [0x3FE4000000000000, 0xBFE4000000000000, 0x3FFCCCCCCCCCCCCD, 0x3FFE666666666666, 0x3FAEB851EB851EB8].map
      (fun x => quantise true 4 x (unpack binary32 0x3E800000)) =
      [(3, .none), (-3, .none), (7, .none), (7, .sat), (0, .flushed)] := by decide +kernel

/-- The example after R112: 1,234 times 2^-13 is 0.150634765625; -517 times 2^-15 more makes 0.134857177734375. -/
theorem test_promotion : promoteTotal 1234 0x3F20000000000000 0 = (0x3FC3480000000000, 0) ∧
    promoteTotal (-517) 0x3F00000000000000 0x3FC3480000000000 = (0x3FC1430000000000, 0) := by decide +kernel

/-- The example after R123: maxabs 7.9375, 1,016 and 0 with Qmax 127. -/
theorem test_scales_from_statistics :
    scaleFromMax (unpack binary32 0x40FE0000) 127 = 0x3D800000 ∧ scaleFromMax (unpack binary32 0x447E0000) 127 = 0x41000000 ∧
    scaleFromMax (unpack binary32 0) 127 = 0x3F800000 := by decide +kernel

/-- The example after R187: the header and the claim word of tile 5 of a deck record in the pool of die 1. -/
theorem test_deck_addresses : wordAddr 257 17 97 = 0x00E004123440 ∧ 0x00E004123440 + 64 + 4096 + 8 * 5 = 0x00E0041244A8 := by decide +kernel

/-- The example after R232: device address 0x100000 of a parity wall lies in stripe 372, on stack 5. -/
theorem test_wall_stripe :
    wallPlace true 0x100000 = (372, 4, 5, 0) := by decide +kernel

/-- The pace example of R285: module 117 asks for 17 units of 256 ns, and for 16 at the longer course. -/
theorem test_requested_length : reqLen 4096 4 16 159 = 17 ∧ reqLen 4352 4 16 952 = 16 := by decide +kernel

/-- The known-sum example of R415: an upset of the P cell of column pair 37 changes its row's sum by 75. -/
theorem test_known_sum : rowSignature (2 ^ 37) = 75 := by decide +kernel

/-- The CRC-32C check value of the digits 1 to 9. -/
theorem test_crc32c : crc32c [0x31, 0x32, 0x33, 0x34, 0x35, 0x36, 0x37, 0x38, 0x39] = 0xE3069283 := by decide +kernel

/-- FIPS 180-4: the digest of "abc". -/
theorem test_sha256 : (sha256 [0x61, 0x62, 0x63]).take 4 = [0xba, 0x78, 0x16, 0xbf] := by decide +kernel

/-- The next state that an outcome answers. -/
def nextOf : Host.Outcome State Fault Refusal → State
  | .next t => t
  | .fault _ => {}
  | .refused _ => {}

/-! ### States and operands that meet the hypotheses of the statements -/

def s1 : State := { d := { regs := RegFile.puts [] [(F.LCS_TAMPER_LATCHED, 0x2f)] } }

def register_write_by_access_type_q1 := Requester.fn 0

def s0 : State := {}

def f0 : Requester := .fn 0

def sR (l : List (Fld × Nat)) : State := { d := { regs := RegFile.puts [] l } }

def halves_of_a_register_s1 := sR [(F.HOST_FN_BAR4_BASE 0, 0x123456789abc)]

def cs (n : Nat) : State := sR [(F.CORE_STATE_STATE 3, n), (F.FW_MBOX_STATUS_STAGE, 10), (F.CORE_STATE_EN 3, 1)]

def core_enable_machine_s1 := cs 1

def core_enable_machine_s2 := cs 0

def core_enable_machine_s3 := cs 3

def enable_waits_s1 := cs 1

def enable_waits_s2 := cs 3

def setup_lock_and_layout_f1 := F.MEM_SCRUB_EN

def sLk : State := { z := { setup := { locked := true } } }

def sC : State := { z := { setup := { rwl := RegFile.puts [] [(F.HOST_FN_CFG_CTX_COUNT 0, 16384)] } }, d := { host := { ctxStage := [(0, 0x100000), (1, 0x200000), (2, 0x300000), (3, 0x800000000008)] } } }

def entRegs (c e : Nat) : List (Fld × Nat) := (List.range 8).map fun i => (F.CTX_ENTRY c i, bitsAt e (64 * i) 64)

def entN (log2 : Nat) (nv : Nat) : Nat := 0x100000 + 0x200000 * 2 ^ 64 + 0x300000 * 2 ^ 128 + log2 * 2 ^ 192 + nv * 2 ^ 239

def ent : Nat := entN 8 1

def regsOf (l : List (Fld × Nat)) : RegFile := RegFile.puts [] l

def sDb (st : Nat) (r : CtxRun) : State := { d := { regs := regsOf ([(F.CTX_STATE_STATE 5, st), (F.CTX_STATUS_RESIDENT 5, 1)] ++ entRegs 5 ent), host := { ctx := [(5, r)] } } }

def doorbell_by_context_state_s1 := sDb 0 {}

def doorbell_by_context_state_s2 := sDb 2 {}

def doorbell_by_context_state_s3 := sDb 2 { shadowOut := true }

def doorbell_by_context_state_s4 := sDb 1 {}

def shadow_return_fetches_s1 := sDb 2 { shadowOut := true }

def fetched_descriptors_queue_ds1 := ([5, 0xff] : List (BitVec 512))

def fetched_descriptors_queue_s1 := sDb 2 { fetchOut := some (4, 2, ent) }

def mk (op : Nat) (l : List (Nat × Nat)) : Nat := op + l.foldl (fun a p => a + p.2 * 2 ^ (8 * p.1)) 0

def qD (desc : Nat) : Fetched := ⟨9, desc, ent, !headerValid desc⟩

def dispatch_of_any_opcode_q1 := qD (mk 0xA [])

def onRegs (c : Nat) : List (Fld × Nat) := [(F.CTX_STATE_STATE c, 2), (F.CTX_STATUS_RESIDENT c, 1)] ++ entRegs c ent

def sD (desc : Nat) (l : List (Fld × Nat)) : State := { d := { regs := regsOf (onRegs 5 ++ [(F.HOST_PART_STATE_STATE 0, 2), (F.FW_PROC_STATE_STATE 3, 2)] ++ l), host := { ctx := [(5, { queue := [⟨9, desc, ent, !headerValid desc⟩] })] } } }

def dispatch_of_any_opcode_s1 := sD (mk 0xA []) []

def dispatch_of_any_opcode_q2 := qD 0xff

def dispatch_of_any_opcode_s2 := sD 0xff []

def dispatch_of_any_opcode_q3 := qD (0x8 + 2^100)

def dispatch_of_any_opcode_s3 := sD (0x8 + 2^100) []

def dispatch_of_any_opcode_q4 := qD (mk 1 [])

def dispatch_of_any_opcode_s4 := sD (mk 1 []) []

def dispatch_of_any_opcode_q5 := qD (mk 2 [])

def dispatch_of_any_opcode_s5 := sD (mk 2 []) []

def dispatch_of_any_opcode_q6 := qD (mk 6 [])

def dispatch_of_any_opcode_s6 := sD (mk 6 []) []

def poolA : Nat := poolAddr 1 0x100

def dispatch_of_any_opcode_q7 := qD (mk 5 [(16, poolA), (24, 20)])

def dispatch_of_any_opcode_s7 := sD (mk 5 [(16, poolA), (24, 20)]) []

def dEv (op a v : Nat) : Nat := mk 0x0B [(16, a), (24, v), (32, op), (34, 0x8000)]

def event_effects_q1 := qD (dEv 0 (2^63 + 0x5000) 77)

def event_effects_s1 := sD (dEv 0 (2^63 + 0x5000) 77) []

def event_effects_q2 := qD (dEv 0 (scratchAddr 3 0x100) 77)

def event_effects_s2 := sD (dEv 0 (scratchAddr 3 0x100) 77) [(F.CORE_STATE_STATE 3, 2)]

def event_effects_q3 := qD (dEv 1 poolA 77)

def event_effects_s3 := sD (dEv 1 poolA 77) []

def event_effects_q4 := qD (dEv 2 0 77)

def event_effects_s4 := sD (dEv 2 0 77) []

def dFill : Nat := mk 5 [(16, poolA), (24, 11), (32, 0x0807060504030201)]

def fill_and_copy_q1 := qD dFill

def fill_and_copy_s1 := sD dFill []

def dCopy : Nat := mk 4 [(16, poolA), (24, poolA + 0x100), (32, 10)]

def fill_and_copy_q2 := qD dCopy

def fill_and_copy_s2 := sD dCopy []

def dCopyH : Nat := mk 4 [(16, 2^63 + 0x7000), (24, poolA + 0x100), (32, 10)]

def fill_and_copy_q3 := qD dCopyH

def fill_and_copy_s3 := sD dCopyH []

def dCopyP : Nat := mk 4 [(16, 2^63 + 0x7000), (24, poolA + 0x100), (32, 3)]

def flP : Flight := { ctx := 5, n := 9, desc := dCopyP, entry := ent, partition := 0, seq := 0, host := 1 }

def sCp : State := { d := { regs := regsOf (onRegs 5 ++ [(F.HOST_PART_STATE_STATE 0, 2)]), host := { ctx := [(5, {})], flights := [(0, flP)], nextId := 1 } } }

def fill_and_copy_b1 := ([1,2,3] : List Byte)

def dFillX : Nat := mk 5 [(16, scratchAddr 63 0x7FFFC), (24, 11), (32, 0x0807060504030201)]

def zL2 : Fixed := { setup := { rwl := RegFile.puts [] [(F.HOST_PART_CFG_LAYOUT, 2)] } }

def sFx : State := { sD dFillX [(F.CORE_STATE_STATE 63, 2), (F.CORE_STATE_STATE 64, 2)] with z := zL2 }

def fill_and_copy_q4 := qD dFillX

def memOf (a : Nat) (bs : List Byte) : List Host.Cell := Memory.writes [] a bs

def numBytes (p n : Nat) : List Byte := leBytes n p

def dCv : Nat := mk 6 [(16, poolA), (24, poolA + 0x1000), (32, 4), (36, 2), (40, 8), (42, 0x14)]

def sCv : State := let s := sD dCv []; { s with d := { s.d with mem := memOf poolA (numBytes 0x05FF8001 4) } }

def convert_and_stats_q1 := qD dCv

def dSs : Nat := mk 7 [(16, poolA), (24, 8), (32, 8), (36, 4), (40, 32), (48, poolA + 0x1000), (56, 1)]

def sSs : State := let s := sD dSs []; { s with d := { s.d with mem := memOf poolA (numBytes 0x05FF8001 4) } }

def convert_and_stats_q2 := qD dSs

def waiting_descriptors_q1 := qD (mk 0x0E [(16, 50), (24, 1)])

def waiting_descriptors_s1 := sD (mk 0x0E [(16, 50), (24, 1)]) []

def dFence : Nat := mk 0x0A []

def waiting_descriptors_q2 := qD dFence

def waiting_descriptors_s2 := sD dFence []

def dWait : Nat := mk 9 [(16, 100)]

def waiting_descriptors_q3 := qD dWait

def waiting_descriptors_s3 := sD dWait []

def dCS : Nat := mk 0x0E [(16, 50)]

def waiting_descriptors_q4 := qD dCS

def regs3 : List (Fld × Nat) := [(F.FW_PROC_STATE_STATE 3, 2)]

structure PlanB where
  modules : Nat := 1
  module : Nat := 0
  keystone : Nat := 0
  successor : Nat := 0
  base : Nat := 16
  course : Nat := 0
  ops : List Nat := []
  sends : List Nat := []
  recvs : List Nat := []
  macs : List (Nat × Nat) := [(0,0)]

def mkPlan (b : PlanB) : Nat × Nat :=
  let ct := 128 + 64
  let oo := ct + 64
  let so := oo + 64
  let ro := so + 64
  let size := ro + 64
  let p := mk 1 ([(2, 7), (4, 3), (6, b.module), (8, b.modules), (10, b.keystone), (12, b.successor), (14, 0), (16, b.base), (18, 4), (20, 256), (22, 64), (24, 64), (26, 2), (27, 2),
    (28, 100), (30, 200), (32, 3000), (34, 300), (36, 3000), (38, 300), (40, b.ops.length), (42, b.sends.length), (44, b.recvs.length), (48, 0x111111), (54, 0x222222), (64, 128), (68, ct), (72, oo), (76, so), (80, ro), (84, size)]
    ++ (List.range b.modules).map (fun i => (128 + 16 * i, (nth (0,0) b.macs i).1 + (nth (0,0) b.macs i).2 * 2 ^ 48))
    ++ [(ct, b.ops.length * 2 ^ 16 + b.sends.length * 2 ^ 48 + b.recvs.length * 2 ^ 80 + b.course * 2 ^ 96)]
    ++ (List.range b.ops.length).map (fun i => (oo + 16 * i, nth 0 b.ops i)) ++ (List.range b.sends.length).map (fun i => (so + 32 * i, nth 0 b.sends i)) ++ (List.range b.recvs.length).map (fun i => (ro + 32 * i, nth 0 b.recvs i)))
  (p + crc32c (leBytes size p) * 2 ^ (8 * 124), size)

def plan0 : Nat := (mkPlan { course := 1, macs := [(({} : Dev).get (F.FAB_PORT_MAC_MAC 0), ({} : Dev).get (F.FAB_PORT_MAC_MAC 1))] }).1

def sCS (desc : Nat) : State := let s := sD desc (regs3 ++ [(F.CRS_JOB_JOINED, 1), (F.CRS_JOB_SUSPENDED, 1), (F.CRS_CKPT_COMMITTED, 50)]); { s with d := { s.d with crs := { active := some plan0 } } }

def waiting_descriptors_s4 := sCS dCS

def dCR : Nat := mk 0x0E [(16, 50), (24, 1)]

def waiting_descriptors_q5 := qD dCR

def waiting_descriptors_s5 := sCS dCR

def dPL : Nat := mk 8 [(16, poolA), (24, 448), (28, 2)]

def sPL : State := let s := sD dPL regs3; { s with d := { s.d with mem := memOf poolA (numBytes plan0 448) } }

def plan_load_and_cancel_q1 := qD dPL

def dPC : Nat := mk 8 [(28, 1)]

def sPC : State := let s := sD dPC regs3; { s with d := { s.d with crs := { staged := some plan0 } } }

def plan_load_and_cancel_q2 := qD dPC

def dJJ : Nat := mk 0x0C [(16, 3), (20, 1), (24, 1), (32, 2000000), (40, 16), (48, 5)]

def sJJ : State := let s := sD dJJ (regs3 ++ [(F.FAB_TIME_STATUS_STATE, timeLocked), (F.FAB_PORT_STATE_STATE 0, 2), (F.FAB_PORT_LINK_LINK_UP 0, 1), (F.CRS_PLAN_STATUS_STAGED_FIRST, 1)]); { s with d := { s.d with crs := { staged := some plan0 } } }

def join_and_leave_are_armed_q1 := qD dJJ

def dJL : Nat := mk 0x0D [(16, 50)]

def join_and_leave_are_armed_q2 := qD dJL

def join_and_leave_are_armed_s1 := sD dJL (regs3 ++ [(F.CRS_JOB_JOINED, 1)])

def dWW : Nat := mk 2 [(16, poolA), (24, 256), (28, 9), (30, 1 + 3 * 4), (31, 4), (32, 8), (34, 3), (35, 1), (37, 4), (38, 1)]

def sWW : State := let s := sD dWW [(F.CIM_STATE_STATE 3 4, 2), (swSTATE (bankWord 3 4 1), 2)]; { s with d := { s.d with mem := memOf poolA (numBytes 0x8001 2) } }

def matrix_swap_and_weight_write_q1 := qD dWW

def dSw : Nat := mk 3 [(16, 3), (17, 1), (19, 4), (20, 1), (21, 1), (22, 9)]

def matrix_swap_and_weight_write_q2 := qD dSw

def matrix_swap_and_weight_write_s1 := sD dSw []

def dMx : Nat := mk 1 [(16, poolA), (24, 3), (32, 40)]

def ext (tm tn tk : Nat) : Nat := tm / 32 + tn / 8 * 2 ^ 24 + tk / 512 * 2 ^ 44
/-- resident INT8 32x16x512 on core 3 macro 0, out INT8 -/

def opR (deck : Nat) : Nat := mk 1 ([(2, 0), (4, 32), (8, 16), (12, 512), (16, 1), (18, 1), (22, 2), (56, deck)] ++ (List.range 4).map (fun l => (24 + 8 * l, ext 32 16 512)) ++
  [(64, poolAddr 0 0x10000), (72, 8), (76, 512), (128, 9), (130, 3), (131, 1), (132, 1), (134, 1), (135, 1), (136, 1), (144, 3),
   (192, poolAddr 0 0x20000), (200, 32), (204, 0x1000), (232, 0x40000), (246, 2), (384, 8), (386, 8)])

def sMx : State := let s := sD dMx [(F.CORE_STATE_STATE 3, 2)]; { s with d := { s.d with mem := memOf poolA (numBytes (opR 0) 512) } }

def matrix_swap_and_weight_write_q3 := qD dMx

def fl1 (desc : Nat) : Flight := { ctx := 5, n := 9, desc := desc, entry := ent, partition := 0, seq := 0 }

def flR : Flight := { fl1 (mk 5 []) with ready := true }

def sF (f : Flight) (l : List (Fld × Nat)) (r : CtxRun) : State := { d := { regs := regsOf (onRegs 5 ++ l), host := { ctx := [(5, r)], flights := [(0, f)], nextId := 1 } } }

def completion_record_is_written_s1 := sF flR [(F.CTX_STATUS_INFLIGHT 5, 1)] { fetchOut := some (3, 1, ent) }

def rejected_record_faults_s1 := sF flR [(F.CTX_STATUS_INFLIGHT 5, 1), (F.CTX_STATE_EN 5, 1)] {}

def flC : Flight := { fl1 (mk 4 [(16, 2^63 + 0x7000), (24, poolA + 0x100), (32, 10)]) with host := 1 }

def host_read_is_retried_s1 := sF flC [] { shadowOut := true, fetchOut := some (3, 1, ent) }

def held_messages_are_sent_as_one_s1 := sF flC [] { heldMsg := [3], lastMsg := some 100 }

def rs (l : List (Fld × Nat)) (r : CtxRun) : State := { d := { regs := regsOf ([(F.CTX_STATE_STATE 5, 2), (F.FW_PROC_STATE_STATE 1, 2)] ++ entRegs 5 ent ++ l), host := { ctx := [(5, r)] } } }

def residency_s1 := rs [(F.CTX_STATUS_PENDING_DB 5, 1)] {}

def residency_s2 := rs [(F.CTX_STATUS_RESIDENT 5, 1), (F.HOST_QS_STATUS_RESIDENT 0, 10)] { evicting := true }

def rs2 : State := { d := { regs := regsOf ([(F.CTX_STATE_STATE 5, 2), (F.CTX_STATE_STATE 6, 2), (F.FW_PROC_STATE_STATE 1, 2), (F.CTX_STATUS_RESIDENT 5, 1), (F.HOST_QS_STATUS_RESIDENT 0, 1024), (F.CTX_STATUS_PENDING_DB 6, 1)] ++ entRegs 5 ent ++ entRegs 6 ent), host := { ctx := [(5, {}), (6, {})] } } }

def sB4 (_ : Nat) : State := { d := { regs := regsOf [(F.HOST_FN_BAR4_BASE 3, poolA), (F.HOST_PART_STATE_STATE 0, 2)], mem := memOf (poolA / 2 ^ 30 * 2 ^ 30) [7, 8, 9] } }

def bar4_access_s1 := sB4 0

def bar4_access_b1 := ([1,2,3] : List Byte)

def bar4_access_off1 := (poolA % 2 ^ 30 : Nat)

def bar4_access_s2 := { sB4 0 with z := { setup := { rwl := RegFile.puts [] [(F.HOST_PART_CFG_LAYOUT, 2), (F.HOST_FN_CFG_PARTITION 3, 3)] } } }

def bar4_access_off2 := (poolA % 2 ^ 30 : Nat)

def bar4_access_b2 := ([1,2,3] : List Byte)

def sB4w (l : List (Fld × Nat)) : State := { d := { regs := regsOf ([(F.HOST_PART_STATE_STATE 0, 2), (F.HOST_FN_BAR4_BASE 3, 0)] ++ l) } }

def bar4_access_s3 := sB4w []

def sOff : State := { d := { regs := regsOf [(F.CTX_PROGRESS_FETCHED 5, 9)], host := { ctx := [(5, {})] } } }

def function_reset_and_power_states_r1 := ({} : CtxRun)

def function_reset_and_power_states_s1 := ({ d := { host := { d3 := [4] } } } : State)

def vector_subtotal_is_the_dot_product_rows1 := ([(5 * 2^128 + 3, 200), (7, 129), (2^130, 3)] : VecRows)

def deckA : Nat := poolAddr 0 0x30000

def o0 : Nat := opR deckA

def t10 : TilePos := ⟨0,0,0⟩

def drw (t : Bool) (st : Bool) : Drawer := { cur := some ⟨0, 1⟩, tile := if t then some (0, 1, false) else none, started := st }

def kM (q : List Chunk) : CoreRun := { flight := some 0, gen := 1, staged := List.replicate 32 (1 :: List.replicate 511 0), aexp := List.replicate 32 (List.replicate 16 0), present := List.range 32, loadOf := some 0, queue := q }

def flO (o : Nat) : Flight := { ctx := 5, n := 9, desc := mk 1 [(16, poolA)], entry := ent, partition := 0, seq := 0, opRec := o, released := true, opSeq := 1 }

def fM : Flight := { flO o0 with policy := 2563, rerun := 2 }

def regsD : List (Fld × Nat) := [(F.CORE_STATE_STATE 3, 2), (F.CIM_STATE_STATE 3 0, 2), (swSTATE (bankWord 3 0 0), 2), (swSTATE (bankWord 3 0 1), 2), (cimVALID 3 0 0, 1), (cimWSID 3 0 0, 9), (cimSLOT 3 0 0, 3), (F.HOST_PART_STATE_STATE 0, 2)]

def sO (f : Flight) (w : Drawer) (k : CoreRun) (q : MacroRun) (l : List (Fld × Nat)) : State :=
  { d := ((({ regs := regsOf (onRegs 5 ++ regsD ++ l), host := { ctx := [(5, {})], flights := [(0, { f with drawers := [(0, w)] })], nextId := 1 } } : Dev).modCore 3 fun _ => k).modMacro 3 0 fun _ => q) }

def sM (q : List Chunk) (l : List (Fld × Nat)) : State := sO fM (drw true true) (kM q) { order := [.op 0] } ([(cimVALID 3 0 0, 1), (cimWSID 3 0 0, 9)] ++ l)

def macro_vector_adds_its_subtotals_s1 := sM [] []

def macro_vector_adds_its_subtotals_s2 := sM [] [(F.CIM_STATE_STATE 3 0, 0)]

def macro_vector_adds_its_subtotals_s3 := sM [] [(cimWSID 3 0 0, 8)]

def macro_vector_adds_its_subtotals_s4 := sM (List.replicate 16384 ⟨0,0,0,0,0,0⟩) []

def jD : WriteJob := { src := .desc 0, bank := 1, slot := 3, wsid := 9, single := false, images := [7, 9] }

def flW : Flight := { ctx := 5, n := 9, desc := mk 2 [(16, poolA)], entry := ent, partition := 0, seq := 0, left := [3 * 68] }

def sW (j : WriteJob) (l : List (Fld × Nat)) : State := { d := ({ regs := regsOf (onRegs 5 ++ regsD ++ l), host := { ctx := [(5, {})], flights := [(0, flW)], nextId := 1 } } : Dev).modMacro 3 0 fun _ => { write := some j } }

def row_attempts_of_a_write_s1 := sW jD [(F.CIM_STATE_STATE 3 0, 3)]

def row_attempts_of_a_write_s2 := sW jD []

def row_attempts_of_a_write_s3 := sW jD []

def row_attempts_of_a_write_j1 := { jD with row := 511 }

def row_attempts_of_a_write_s4 := sW { jD with row := 511 } []

def jS : WriteJob := { jD with single := true }

def single_pass_write_ends_s1 := sW jS [(F.CIM_STATE_STATE 3 0, 3)]

def single_pass_write_ends_s2 := sW jS []

def single_pass_write_ends_firstFails1 := ([3,4] : List (Fin 512))

def single_pass_write_ends_rewriteFails1 := ([] : List (Fin 512))

def bank_swap_applies_rest1 := ([] : List OrderItem)

def flS : Flight := { ctx := 5, n := 9, desc := mk 3 [(16, 3), (17, 1), (20, 1), (21, 1), (22, 9)], entry := ent, partition := 0, seq := 0, left := [3 * 68] }

def sSw (w : Option WriteJob) (l : List (Fld × Nat)) : State := { d := ({ regs := regsOf (onRegs 5 ++ regsD ++ l), host := { ctx := [(5, {})], flights := [(0, flS)], nextId := 1 } } : Dev).modMacro 3 0 fun _ => { write := w, order := [.swap (some 0) 1 9] } }

def bank_swap_applies_s1 := sSw (some jD) []

def bank_swap_applies_src1 := (some 0 : Option Nat)

def bank_swap_applies_rest2 := ([] : List OrderItem)

def bank_swap_applies_s2 := sSw none []

def bank_swap_applies_src2 := (some 0 : Option Nat)

def m56 : Fin 68 := 56

def oT (k1 : Nat) : Nat := mk 1 ([(2, 1), (4, 32), (8, 16), (12, 1024), (16, 1), (18, 1), (22, 2), (56, deckA), (24, ext 32 16 512), (32, ext 32 16 k1), (40, ext 32 16 1024), (48, ext 32 16 1024)] ++
  [(64, poolAddr 0 0x10000), (72, 8), (76, 1024), (128, poolAddr 0 0x70000), (136, 8), (139, 0x11), (140, 32), (160, 3), (161, 1),
   (192, poolAddr 0 0x20000), (200, 32), (204, 0x1000), (224, 0x8000), (228, 4160), (232, 0x40000), (246, 2), (384, 8), (386, 8)])

def kSw : CoreRun := { flight := some 0, loadSwap := some (loadKey (oT 512) ⟨0,0,0⟩), loadLeft := [56] }

def sSq : State := { d := (((sO (flO (oT 512)) {} kSw {} [(F.CIM_STATE_STATE 3 56, 2), (swSTATE (bankWord 3 56 0), 2), (swSTATE (bankWord 3 56 1), 2), (cimVALID 3 56 1, 1)]).d).modMacro 3 56 fun _ => { order := [.swap none 1 0] }) }

def bank_swap_applies_rest3 := ([] : List OrderItem)

def bank_swap_applies_src3 := (none : Option Nat)

def bank_swap_applies_o1 := oT 512

def bank_swap_applies_f1 := { flO (oT 512) with drawers := [(0, {})] }

def bank_swap_applies_k1 := loadKey (oT 512) ⟨0,0,0⟩

def ch0 : Chunk := ⟨2, 4, 0, 1000, 0, 0⟩

def kFull : CoreRun := { flight := some 0, queue := [ch0], present := [], needResume := true }

def chunk_promotion_s1 := sO (flO o0) {} kFull {} []

def oA : Nat := o0 + (poolAddr 0 0x60000) * 2 ^ (8 * 96) + 1 * 2 ^ (8 * 104)

def kP (sc : List ScaleEntry) : CoreRun := { flight := some 0, queue := [ch0], present := [2], scales := sc }

def chunk_promotion_s2 := sO (flO oA) {} (kP [⟨0,0,0,0⟩]) {} []

def chunk_promotion_s3 := sO (flO oA) {} (kP []) {} []

def oC : Nat := o0 + 1 * 2 ^ (8 * 3)

def chN : Chunk := ⟨2, 4, 0, 1000, 0, 0⟩

def kN : CoreRun := { flight := some 0, queue := [chN], present := [2] }

def chunk_promotion_s4 := sO (flO oC) {} kN {} []

def kL : CoreRun := { flight := some 0, link := [⟨0, 2, [5, 6, 7], true⟩] }

def chain_resume_and_scales_s1 := sO (flO o0) {} kL {} [(F.CORE_ID_PHYSICAL 4, 5), (F.CORE_LINK_NEXT_STOPS 3, 1)]

def chain_resume_and_scales_l1 := (⟨0, 2, [5, 6, 7], true⟩ : LinkRow)

def chain_resume_and_scales_rest1 := ([] : List LinkRow)

def chain_resume_and_scales_faultAt1 := (none : Option (LinkPart × Bool))

def chain_resume_and_scales_x1 := (LinkPart.segment 3 0)

def chain_resume_and_scales_s2 := sO (flO oA) {} (kP []) {} []

def t1T (k : Nat) : TilePos := ⟨0,0,k⟩

def aS : Nat := spillAddr (oT 512) 3 0 0 (t1T 512)

def kR : CoreRun := { flight := some 0, l1 := 1, needResume := true, gen := 1 }

def sRes : State := let s := sO (flO (oT 512)) {} kR {} []; { s with d := { s.d with mem := memOf aS (numBytes (spillHeader 0 512 32 16 false 1) 32) } }

def chain_resume_and_scales_o1 := oT 512

def chain_resume_and_scales_t11 := t1T 512

def chain_resume_and_scales_o2 := oT 512

def chain_resume_and_scales_s3 := sO (flO (oT 512)) {} kR {} []

def chain_resume_and_scales_t12 := t1T 512

def kE : CoreRun := { flight := some 0, l0 := 1, present := List.range 32, totals := [(5, 77)] }

def end_of_a_pass_s1 := sO (flO o0) {} kE {} []

def oT2 : Nat := mk 1 ([(2, 1), (4, 64), (8, 16), (12, 1024), (16, 1), (18, 1), (20, 2 * 8), (22, 2), (56, deckA), (24, ext 32 16 512), (32, ext 32 16 512), (40, ext 64 16 1024), (48, ext 64 16 1024)] ++
  [(64, poolAddr 0 0x10000), (72, 8), (76, 1024), (128, poolAddr 0 0x70000), (136, 8), (139, 0x11), (140, 32), (160, 3), (161, 1),
   (192, poolAddr 0 0x20000), (200, 32), (204, 0x1000), (224, 0x10000), (228, 4160), (232, 0x40000), (246, 2), (384, 8), (386, 8)])

def end_of_a_pass_o1 := oT2 + 2 * 8 * 2 ^ 160

def end_of_a_pass_s2 := sO (flO (oT2 + 2 * 8 * 2 ^ 160)) {} kE {} []

def end_of_a_pass_t21 := (⟨32,0,0⟩ : TilePos)

def end_of_a_pass_o2 := oT 512

def kE_D4 (l1 : Nat) : CoreRun := { flight := some 0, l1 := l1, l0 := 2, present := List.range 32, totals := [(5, 77)] }

def end_of_a_pass_s3 := sO (flO (oT 512)) {} (kE_D4 0) {} []

def end_of_a_pass_t11 := t1T 0

def end_of_a_pass_t22 := t1T 512

def one : List Host.Cell := Memory.writes [] (poolAddr 0 0x50000) ((List.range 32).flatMap fun i => leBytes 4 (if i % 16 = 0 then 0x3F800000 else 0))

def oQ : Nat := mk 1 ([(2, 0), (4, 32), (8, 16), (12, 512), (16, 1), (18, 1), (22, 2), (56, deckA)] ++ (List.range 4).map (fun l => (24 + 8 * l, ext 32 16 512)) ++
  [(64, poolAddr 0 0x10000), (72, 8), (76, 512), (128, 9), (130, 3), (131, 1), (132, 1), (134, 1), (135, 1), (136, 1), (144, 3),
   (192, poolAddr 0 0x20000), (200, 32), (204, 0x1000), (232, 0x40000), (246, 2), (320, poolAddr 0 0x50000), (328, 3), (332, 64), (384, 6), (386, 8), (388, 1), (400, 8), (402, 8)])

def wD : Drawer := { tile := some (0, 1, false), started := true }

def kQ (b : DrainBlock) : CoreRun := { flight := some 0, drains := [b], walked := true }

def sQ (b : DrainBlock) (m : List Host.Cell) : State := let s := sO (flO oQ) wD (kQ b) {} [(F.HLT_CHECK_STATUS_MODE_EFF, 0)]; { s with d := { s.d with mem := m } }

def bQ : DrainBlock := ⟨0, 0, [(5, 0x40C0000000000000)], false, false⟩

def drain_and_replay_s1 := sQ bQ one

def fQ : Flight := { flO oQ with drawers := [(0, wD)] }

def drain_and_replay_rest1 := ([] : List DrainBlock)

def bQ2 : DrainBlock := { bQ with replayDue := true }

def drain_and_replay_s2 := sQ bQ2 one

def drain_and_replay_rest2 := ([] : List DrainBlock)

def bD : DrainBlock := ⟨0, 0, [(5, 0x4010000000000000)], false, false⟩

def kD : CoreRun := { flight := some 0, drains := [bD], walked := true }

def drain_and_replay_s3 := sO (flO o0) wD kD {} [(F.HLT_CHECK_STATUS_MODE_EFF, 0)]

def drain_and_replay_f1 := { flO o0 with drawers := [(0, wD)] }

def drain_and_replay_rest3 := ([] : List DrainBlock)

def rD : List (Fld × Nat) := [(F.HLT_CHECK_STATUS_MODE_EFF, 0), (F.CIM_STATE_STATE 3 56, 2), (swSTATE (bankWord 3 56 0), 2), (swSTATE (bankWord 3 56 1), 2)]

def oD : Nat := o0 + (8 + 0x1138 * 2 ^ 24) * 2 ^ (8 * 385)

def drain_and_replay_s4 := sO (flO oD) wD kD {} rD

def drain_and_replay_f2 := { flO oD with drawers := [(0, wD)] }

def drain_and_replay_rest4 := ([] : List DrainBlock)

def drain_and_replay_st1 := opStep oD 0

def streaming_load_is_written_o1 := oT 512

def regsS : List (Fld × Nat) := [(F.CIM_STATE_STATE 3 56, 2), (swSTATE (bankWord 3 56 0), 2), (swSTATE (bankWord 3 56 1), 2)]

def kS : CoreRun := { flight := some 0 }

def streaming_load_is_written_s1 := sO (flO (oT 512)) {} kS {} regsS

def streaming_load_is_written_p1 := t1T 0

def fDk (w : Drawer) : Flight := { fM with drawers := [(0, w)] }

def tile_start_f1 := fDk (drw true false)

def deckM : List Host.Cell := memOf deckA (numBytes (mk 0 [(0,0),(8,0)]) 64)

def sDk (w : Drawer) (b : List Host.Cell) : State := let s := sO fM w {} { order := [.op 0] } []; { s with d := { s.d with mem := b } }

def tile_start_s1 := sDk (drw true false) deckM

def wH : Drawer := { tile := some (1, 1, false) }

def oH : Nat := mk 1 ([(2, 4), (4, 96), (8, 16), (12, 12), (16, 1), (18, 1), (22, 2), (56, deckA), (24, ext 32 16 512), (32, ext 32 16 512), (40, ext 32 16 512), (48, ext 96 16 512)] ++
  [(64, poolAddr 0 0x10000), (72, 8), (76, 64), (128, 9), (130, 3), (131, 1), (132, 1), (134, 1), (135, 1), (136, 1), (144, 3),
   (192, poolAddr 0 0x20000), (200, 32), (204, 0x1000), (232, 0x40000), (236, 0x48000), (240, 1024), (244, 4), (246, 2), (256, 8), (258, 16), (260, 4), (262, 3), (263, 1), (264, 1), (265, 1), (266, 1), (267, 1), (384, 8), (386, 8)])

def halo_fetch_f1 := { flO oH with drawers := [(0, wH)] }

def sH (h : Nat) : State := let s := sO (flO oH) wH {} { order := [.op 0] } []; { s with d := s.d.store none (haloAddr oH 0) (leBytes 200 h) }

def halo_fetch_s1 := sH (mk 0 [(8, 2), (10, 2), (64, 0x55)])

def halo_fetch_f2 := { flO oH with drawers := [(0, wH)] }

def halo_fetch_s2 := sH (mk 7 [(8, 2), (10, 2), (64, 0x55)])

def deck_draw_f1 := fDk {}

def deck_draw_s1 := sDk {} deckM

def deck_draw_f2 := fDk {}

def deck_draw_s2 := sDk {} (memOf deckA [5])

def fDa : Flight := { flO o0 with policy := 2 }

def wDa : Drawer := { cur := some ⟨0, 1⟩, started := true, tile := some (0, 1, false) }

def sDa : State := { d := (sO fDa wDa {} {} []).d.store none deckA [0] }

def deck_draw_f3 := { fDa with drawers := [(0, wDa)] }

def wSt : Drawer := { target := some (1, 1, 0), empty := true }

def sSt : State := { d := (sO (flO o0) wSt {} { order := [.op 0] } []).d }

def tile_claim_f1 := { flO o0 with drawers := [(0, wSt)] }

def sSl : State := { d := sSt.d.store none (claimAddr o0 0) (leBytes 8 (claimWord claimDone 0 1 1)) }

def tile_claim_f2 := { flO o0 with drawers := [(0, wSt)] }

def wCl : Drawer := { cur := some ⟨0, 3⟩ }

def sCl : State := { d := (sO (flO o0) wCl {} { order := [.op 0] } []).d.store none (claimAddr o0 0) (leBytes 8 (claimWord claimStarted 0 1 1)) }

def tile_claim_f3 := { flO o0 with drawers := [(0, wCl)] }

def tile_claim_h1 := (⟨0,3⟩ : Hand)

def fDeal : Flight := { flO o0 with desc := mk 1 [(16, poolA), (24, 2)], rerun := 1 }

def tw : TileWrite := ⟨poolAddr 0 0x20000, 0, 8, [3, 4]⟩

def wF : Drawer := { tile := some (0, 1, false), started := true, writes := [tw] }

def tile_finish_f1 := { fDeal with drawers := [(0, wF)] }

def kF : CoreRun := { flight := some 0, walked := true }

def tile_finish_s1 := sO fDeal wF kF {} [(F.SEQ_MODE_BUSY 3, 1)]

def o2 : Nat := mk 1 ([(2, 0), (4, 64), (8, 16), (12, 512), (16, 1), (18, 1), (22, 2), (56, deckA)] ++ (List.range 4).map (fun l => (24 + 8 * l, ext 32 16 512)) ++
  [(64, poolAddr 0 0x10000), (72, 8), (76, 512), (128, 9), (130, 3), (131, 1), (132, 1), (134, 1), (135, 1), (136, 1), (144, 3),
   (192, poolAddr 0 0x20000), (200, 32), (204, 0x1000), (232, 0x40000), (246, 2), (384, 8), (386, 8)])

def wF2 : Drawer := { tile := some (0, 1, false), started := true, writes := [⟨poolAddr 0 0x20000, 0, 8, [3, 4]⟩] }

def tile_finish_f2 := { flO o2 with drawers := [(0, wF2)] }

def tile_finish_s2 := sO (flO o2) wF2 kF {} [(F.SEQ_MODE_BUSY 3, 1)]

def wR : Drawer := { tile := some (0, 1, false), abandoned := true }

def sRt : State := let s := sO (flO o0) wR {} { order := [.op 0] } []; { s with d := s.d.store none (claimAddr o0 0) (leBytes 8 (claimWord claimStarted 0 1 1)) }

def steal_return_and_stall_f1 := { flO o0 with drawers := [(0, wR)] }

def wS : Drawer := { empty := true }

def fS (st : Nat) : Flight := { flO o0 with policy := st }

def steal_return_and_stall_f2 := { fS 0 with drawers := [(0, wS)] }

def steal_return_and_stall_s1 := sO (fS 0) wS {} { order := [.op 0] } []

def sSt_D7 : State := let s := sO (flO o0) { stopped := true } {} {} []; s

def steal_return_and_stall_f3 := { flO o0 with drawers := [(0, { stopped := true })] }

def o2_D8 : Nat := mk 1 ([(2, 0), (4, 64), (8, 16), (12, 512), (16, 1), (18, 1), (22, 2), (56, deckA)] ++ (List.range 4).map (fun l => (24 + 8 * l, ext 32 16 512)) ++
  [(64, poolAddr 0 0x10000), (72, 8), (76, 512), (128, 9), (130, 3), (131, 1), (132, 1), (134, 1), (135, 1), (136, 2), (144, 3), (145, 4),
   (192, poolAddr 0 0x20000), (200, 32), (204, 0x1000), (232, 0x40000), (246, 2), (384, 8), (386, 8)])

def f2 : Flight := { flO o2_D8 with policy := 1, drawers := [(0, { empty := true }), (1, { cur := some ⟨1, 1⟩ })] }

def s2' : State := let s := sO f2 {} {} {} [(F.CORE_STATE_STATE 4, 2)]; { s with d := (s.d.setFlight 0 f2).store none (handEntry o2_D8 1) (leBytes 16 (mk 1 [(4,1),(6,1)])) }

def steal_return_and_stall_s2 := s2'

def steal_return_and_stall_p1 := ((1,1,1) : Nat × Nat × Nat)

def level0_commands_q1 := Requester.proc 5

def c0 : Nat := mk 0x2000 [(4, 8), (5, 3), (6, 4), (8, 1), (16, 0x4000)]

def sL0 : State := let s := sO (flO o0) {} {} {} []; { s with d := { s.d with mem := memOf (scratchAddr 3 0x100) (numBytes c0 32) } }

def level0_commands_a1 := (scratchAddr 3 0x3FF8 : Nat)

def level0_commands_q2 := Requester.proc 5

def level0_commands_q3 := Requester.proc 5

def level0_commands_s1 := sO (flO o0) {} kF {} []

def b7 : Fin 192 := 7

def pl1 : BankArray := .pool 1

def clO : BankClaim := ⟨5, 1, .read, some 0, false, none⟩

def clR : BankClaim := ⟨3, 2, .read, some 0, false, none⟩

def bank_cycle_claims1 := [clR, clO]

def sBk : State := { d := { mem := [(wordAddr 257 7 2 + 3, 5)] } }

def spB : BankArray := .scratch 3

def clT : BankClaim := ⟨2, 2, .read, some 0, false, none⟩

def clS : BankClaim := ⟨3, 2, .read, some 0, false, none⟩

def bank_cycle_claims2 := [clS, clT]

def sBs : State := { d := { regs := regsOf [(F.CORE_STATE_STATE 3, 2)], pool := { busy := [(bankKey 3 7, 3)] } } }

def clW : BankClaim := ⟨3, 2, .write [(1, 9), (70, 3)], some 0, false, none⟩

def bank_cycle_claims3 := [clW, clO]

def bank_cycle_bytes1 := ([(1, 9), (70, 3)] : List (Nat × Byte))

def bank_cycle_claims4 := [clR, clO]

def bank_cycle_s1 := { sBk with z := zL2 }

def bank_cycle_claims5 := [clW, clO]

def bank_cycle_s2 := { sBk with z := zL2 }

def bank_cycle_bytes2 := ([(1, 9), (70, 3)] : List (Nat × Byte))

def bank_cycle_claims6 := [clR, clO]

def bank_cycle_s3 := { sBk with d := { sBk.d with pool := { busy := [(bankKey 257 7, 5)] } } }

def atomics_a1 := (wordAddr 257 7 2 + 1 : Nat)

def atomics_part1 := (some 0 : Option (Fin 4))

def atomics_w1 := AtomicWidth.w8

def atomics_a2 := (poolAddr 1 vaultOff : Nat)

def atomics_part2 := (none : Option (Fin 4))

def atomics_s1 := ({} : State)

def atomics_w2 := AtomicWidth.w8

def atomics_a3 := (wordAddr 257 7 2 : Nat)

def atomics_part3 := (some 0 : Option (Fin 4))

def atomics_w3 := AtomicWidth.w8

def bor : Borrow := ⟨1, 7, 0, false, 0, 0, 0, 0⟩

def sPt (l : List (Fld × Nat)) : State := { d := { regs := regsOf l, pool := { writeBack := [(bankKey 257 7, 2, 3)], borrows := [(257 * 4 + 1, bor)] } } }

def sPtB : State := let s := sPt []; { s with d := { s.d with pool := { s.d.pool with busy := [(bankKey 257 7, 5)] } } }

def patrol_writeback_and_borrow_s1 := sPt [(F.POOL_DP_SCRUB_EN 1, 0)]

def patrol_writeback_and_borrow_x1 := ((bankKey 257 7, 2, 3) : Nat × Nat × Nat)

def vault_wipe_a1 := (vaultOff + 5 : Nat)

def sVw : State := sR [(F.POOL_VAULT_STATUS_WIPING, 0xf), (F.POOL_DP_STATUS_WIPING 2, 1)]

def wl (l : List (Fld × Nat)) : State := { d := { regs := regsOf ([(F.MEM_WALL_STATUS_STATE 0, 1), (F.MEM_WALL_STATUS_MISSING 0, 15), (F.MEM_WALL_CFG_PARITY_EFF 0, 1)] ++ (List.range 24).map (fun i => (F.MEM_STACK_STATE_STATE i, 2)) ++ l) } }

def stack_read_s1 := wl []

def stack_read_part1 := (some 0 : Option (Fin 4))

def stack_read_other1 := (none : Option (Fin 12))

def sMs : State := wl [(F.MEM_WALL_STATUS_STATE 0, 2), (F.MEM_WALL_STATUS_MISSING 0, (wallPlace true 5120).2.2.1)]

def stack_read_part2 := (some 0 : Option (Fin 4))

def stack_read_other2 := (none : Option (Fin 12))

def zL1 : Fixed := { setup := { rwl := RegFile.puts [] [(F.HOST_PART_CFG_LAYOUT, 2)] } }

def stack_read_s2 := { wl [] with z := zL1 }

def stack_read_part3 := (some 3 : Option (Fin 4))

def stack_read_s3 := wl [(F.MEM_WALL_CFG_PARITY_EFF 0, 0)]

def stack_read_part4 := (some 0 : Option (Fin 4))

def wr : WallReq := ⟨0, 1, .write none [(2304, 1), (2305, 2)]⟩

def sWq : State := let s := wl []; { s with d := { s.d with wall := { waiting := [wr], slots := [⟨0, 4, 0, [(3, 5)], []⟩] } } }

def wall_writes_bytes1 := ([4,5] : List Byte)

def wall_writes_part1 := (some 0 : Option (Fin 4))

def wall_writes_held1 := ([] : List (Fin 100663296))

def wall_writes_sl1 := (⟨0, 4, 0, [(3, 5)], []⟩ : Slot)

def wall_writes_bytes2 := ([4,5] : List Byte)

def wall_writes_part2 := (some 0 : Option (Fin 4))

def wall_writes_held2 := ([1] : List (Fin 100663296))

def wall_writes_s1 := wl []

def wall_writes_bytes3 := List.replicate 2816 (4 : Byte)

def wall_writes_part3 := (some 0 : Option (Fin 4))

def wall_writes_held3 := ([] : List (Fin 100663296))

def sWc : State := let s := wl []; { s with d := { s.d with wall := { waiting := [⟨0, 4, .close⟩], slots := [⟨0, 4, 0, [(3, 5)], []⟩] } } }

def wall_writes_sl2 := (⟨0, 4, 0, [(3, 5)], []⟩ : Slot)

def parity_is_kept_d1 := (wl []).d

def rebuild_step_s1 := wl [(F.MEM_WALL_STATUS_STATE 0, 3), (F.MEM_WALL_STATUS_MISSING 0, 4), (F.MEM_WALL_REBUILD_STRIPE 0, 77)]

def rebuild_step_k1 := (stackKey 3 77 5 : Nat)

def sRb : State := let s := wl [(F.MEM_WALL_STATUS_STATE 0, 3), (F.MEM_WALL_STATUS_MISSING 0, 4), (F.MEM_WALL_REBUILD_STRIPE 0, 77)]; { s with d := { s.d with wall := { waiting := [⟨0, 77, .close⟩] } } }

def stack_link_patrol_and_temperature_s1 := { wl [(F.MEM_SCRUB_EN, 1)] with d := { (wl [(F.MEM_SCRUB_EN, 1)]).d with aux := { rails := .good } } }

def stack_link_patrol_and_temperature_s2 := wl [(F.MEM_SCRUB_EN, 1)]

def ms (l : List (Fld × Nat)) (h : HltS) : State := { d := { regs := regsOf ([(F.HLT_SLICE_CFG_EN, 1), (F.FW_PROC_STATE_STATE 5, 2), (F.CIM_STATE_STATE 3 0, 2)] ++ l), hlt := h } }

def sl0 (ph : Nat) (due : Bool) : Slice := { macroIx := 0, spare := 64, phase := ph, due := due }

def sM1 : State := let s := ms [] { slices := [(3, sl0 1 false)] }; { s with d := { s.d with cells := [(({} : Dev).rowKeyOf 3 0 0 5, 77)] } }

def macro_slices_sl1 := sl0 1 false

def macro_slices_s1 := ms [] { targeted := [3 * 68] }

def macro_slices_rest1 := ([65,66,67] : List Nat)

def macro_slices_s2 := ms [] { slices := [(3, sl0 3 false)] }

def macro_slices_sl2 := sl0 3 false

def macro_slices_s3 := ms [] { slices := [(3, sl0 4 false)] }

def macro_slices_sl3 := sl0 4 false

def bank_slices_arr1 := BankArray.scratch 3

def bs (l : List (Fld × Nat)) (p : PoolS) : State := { d := { regs := regsOf ([(F.HLT_SLICE_CFG_SP_EN, 1), (F.HLT_SLICE_CFG_DP_EN, 1), (F.FW_PROC_STATE_STATE 5, 2)] ++ l), pool := p } }

def bank_slices_s1 := bs [] {}

def bank_slices_rest1 := ([] : List Nat)

def bb2 : Borrow := ⟨2, 7, 1, true, 0, 0, 0, 0⟩

def bank_slices_arr2 := BankArray.pool 1

def bank_slices_s2 := bs [] { borrows := [(257*4+2, bb2)] }

def kss : State := { d := { regs := regsOf [(F.HLT_CHECK_STATUS_MODE_EFF, 2), (F.CORE_STATE_STATE 3, 2), (F.CIM_STATE_STATE 3 0, 2)] } }

def known_sum_check_found1 := (none : Option (BitVec 32))

def known_sum_check_found2 := (some 5 : Option (BitVec 32))

def cmdT (t u e : Nat) : BitVec 64 := BitVec.ofNat 64 (t + u * 2^8 + e * 2^16 + 3 * 2^24)

def test_engine_cmd1 := cmdT 2 3 0

def tes : State := { d := { regs := regsOf [(F.LCS_STATE_STATE, 1), (F.CORE_STATE_STATE 3, 2), (F.CIM_STATE_STATE 3 0, 2)] } }

def test_engine_s1 := { tes with d := { tes.d with hlt := { te := some 5 } } }

def test_engine_cmd2 := cmdT 1 3 0

def test_engine_cmd3 := cmdT 3 3 9

def test_engine_cmd4 := cmdT 4 3 9

def test_engine_cmd5 := cmdT 5 3 9

def lu (l : List (Fld × Nat)) : State := { d := { regs := regsOf ([(F.FAB_PORT_STATE_STATE 0, 2), (F.FAB_PORT_STATE_STATE 1, 2), (F.FAB_PORT_LINK_LINK_UP 0, 1), (F.FAB_PORT_LINK_LINK_UP 1, 1), (F.FW_PROC_STATE_STATE 3, 2)] ++ l), fab := { announce := [(1, 9)] } } }

def fabric_ports_s1 := lu []

def frJ : EthFrame := ⟨5, none, 0x800, [1,2,3], false, (2, 1)⟩

def fabric_ports_fs1 := (⟨[100, 200], [64], BitVec.ofNat 8 ((lu []).z.get F.FAB_PTP_CFG_DOMAIN)⟩ : AsFrames)

def fabric_ports_s2 := lu [(F.FAB_PORT_LINK_LINK_UP 0, 0)]

def mac (p : Nat) : Nat := ({} : Dev).get (F.FAB_PORT_MAC_MAC p)

def planJ : Nat := (mkPlan { modules := 2, successor := 1, macs := [(mac 0, mac 1), (0x77, 0x78)] }).1

def js (l : List (Fld × Nat)) (x : CrsS) : State := { d := { regs := regsOf (onRegs 5 ++ [(F.FAB_PORT_STATE_STATE 0, 2), (F.FAB_PORT_STATE_STATE 1, 2), (F.FAB_PORT_LINK_LINK_UP 0, 1), (F.FAB_PORT_LINK_LINK_UP 1, 1), (F.FW_PROC_STATE_STATE 3, 2), (F.CRS_JOB_JOINED, 1), (F.CRS_JOB_JOB_ID, 7), (F.CRS_LEN_LEN, 16), (F.CRS_LEN_BASE_LEN, 16), (F.HOST_PART_STATE_STATE 0, 2)] ++ l), crs := { x with active := some planJ, joinCtx := 5 }, mem := [(poolAddr 0 0x2000, 5)] } }

def fabric_ports_s3 := js [] {}

def mkFr (p type : Nat) (rep last : Bool) (src dst course slot seg : Nat) (payload : List Byte) (crcBad : Bool := false) : EthFrame :=
  let h := leBytes 28 (dyoshHeader type rep last p 7 src dst course slot seg payload.length 1)
  ⟨BitVec.ofNat 48 (mac p), some (BitVec.ofNat 16 (({} : Fixed).get F.FAB_CFG_VID)), BitVec.ofNat 16 (({} : Fixed).get F.FAB_CFG_ETHERTYPE),
   h ++ leBytes 4 (crc32c (h ++ payload) + if crcBad then 1 else 0) ++ payload, true, (2, 1)⟩

def fX : EthFrame := mkFr 0 9 false false 1 0 0 3 0 (leBytes 16 0)

def fabric_ports_s4 := lu []

def frBig : EthFrame := ⟨5, none, 0x800, List.replicate 9200 1, true, (2, 1)⟩

def fabric_ports_s5 := js [] {}

def fabric_ports_fr1 := { fX with data := fX.data.set 30 0 }

def ft (l : List (Fld × Nat)) (f : FabS) : State := { lu l with d := { (lu l).d with fab := f } }

def fabric_time_d1 := (ft [] {slew := -100000, slewFrac := 999999}).d

def fabric_time_s1 := ft [(F.FAB_TIME_STATUS_STATE, 2),(F.FAB_PORT_PTP_SYNC_OK 1, 1)] {}

def dom0 : BitVec 8 := BitVec.ofNat 8 ((lu []).z.get F.FAB_PTP_CFG_DOMAIN)

def fabric_time_fs1 := (⟨[100], [], dom0⟩ : AsFrames)

def fabric_time_s2 := ft [] {}

def fabric_time_fs2 := (⟨[100], [], dom0⟩ : AsFrames)

def fabric_time_s3 := ft [(F.FAB_TIME_STATUS_STATE, 2), (F.FAB_PTP_CFG_PPS_EN, 1), (F.FAB_TIME_STATUS_PPS_SEEN, 1)] {}

def fabric_time_s4 := ft [(F.FAB_TIME_STATUS_STATE, 3), (F.FAB_PTP_CFG_PPS_EN, 1)] {}

def fabric_time_s5 := ft [(F.FAB_TIME_STATUS_STATE, 1),(F.FAB_PORT_PTP_SYNC_OK 1, 1)] {}

def fabric_time_fs3 := (⟨[100], [], dom0⟩ : AsFrames)

def fabric_time_s6 := ft [(F.FAB_TIME_STATUS_STATE, 3),(F.FAB_PORT_PTP_SYNC_OK 1, 1)] {holdErr := 70000}

def fabric_time_s7 := ft [(F.FAB_TIME_STATUS_STATE, 4),(F.FAB_PORT_PTP_SYNC_OK 1, 1)] {holdErr := 70000}

def fW : Flight := { ctx := 5, n := 9, desc := mk 9 [(16, 5)], entry := ent, partition := 0, seq := 0, armed := some 1 }

def cb (l : List (Nat × Flight)) : State := { d := { regs := regsOf (onRegs 5), host := { ctx := [(5, {})], flights := l, nextId := 1 } } }

def course_boundary_s1 := cb [(0, fW)]

def se (len : Nat) : Nat := mk 0 [(0, poolAddr 0 0x2000), (8, len), (12, 3), (14, 1), (16, 300)]

def sr (ph : SlotPhase) (c : Nat) : SendRun := { entry := se 100, course := c, phase := ph, deadline := 5000000 }

def slots_are_sent_r1 := sr .resent 0

def slots_are_sent_s1 := js [] {sends := [sr .resent 0]}

def fAr : EthFrame := mkFr 0 1 true false 1 0 0 3 0 (leBytes 16 0)

def slots_are_sent_r2 := sr .sent 0

def slots_are_sent_s2 := js [] {sends := [sr .sent 0]}

def fA (res : Nat) : EthFrame := mkFr 0 1 false false 1 0 0 3 0 (leBytes 16 res)

def slots_are_sent_fr1 := fA 0

def srBig : SendRun := { entry := se 80000, course := 0, phase := .failed, deadline := 5000000 }

def slots_are_sent_s3 := js [(F.CRS_COURSE_COURSE, 1)] {sends := [srBig]}

def slots_are_sent_r3 := sr .due 0

def slots_are_sent_s4 := js [(F.CRS_JOB_FAILED, 1)] {sends := [sr .due 0]}

def slots_are_sent_r4 := sr .due 0

def slots_are_sent_s5 := js [] {sends := [sr .due 0]}

def slots_are_sent_r5 := sr .due 0

def slots_are_sent_s6 := js [(F.FAB_PORT_LINK_LINK_UP 0, 0)] {sends := [sr .due 0]}

def slots_are_sent_r6 := sr .sent 0

def slots_are_sent_s7 := js [] {sends := [sr .sent 0]}

def slots_are_sent_fr2 := fA 2

def slots_are_sent_r7 := sr .failed 0

def slots_are_sent_s8 := js [(F.CRS_COURSE_COURSE, 1)] {sends := [sr .failed 0]}

def rr (c : Nat) (done : Bool) : RecvRun := { ix := 9, entry := se 100, course := c, done := done }

def slots_are_received_s1 := js [(F.CRS_COURSE_COURSE, 1)] {recvs := [rr 0 false]}

def slots_are_received_x1 := rr 0 false

def slots_are_received_s2 := js [] {recvs := [rr 0 false]}

def fD (bad : Bool) : EthFrame := mkFr 0 0 false true 1 0 0 3 0 (List.replicate 100 7) bad

def slots_are_received_fr1 := fD false

def slots_are_received_r1 := rr 0 false

def slots_are_received_s3 := js [] {recvs := [rr 0 false]}

def slots_are_received_fr2 := fD true

def slots_are_received_r2 := rr 0 false

def status_and_keystone_words_s1 := js [(F.CRS_JOB_ROLE, 1)] {}

def fS_F3 : EthFrame := mkFr 0 2 false false 1 0 0 0 0 (leBytes 48 0)

def status_and_keystone_words_s2 := js [(F.CRS_JOB_ROLE, 1)] {statusSent := some 0, reports := [(1, { course := 0, missed := 3, req := 0, ckpt := 0, ready := none, leaving := none, planId := 0 })]}

def planM : Nat := (mkPlan { modules := 2, module := 1, keystone := 0, successor := 1, macs := [(mac 0, mac 1), (0x77, 0x78)] }).1

def jm (l : List (Fld × Nat)) (x : CrsS) : State := let s := js l x; { s with d := { s.d with crs := { s.d.crs with active := some planM } } }

def status_and_keystone_words_s3 := jm [(F.CRS_JOB_ROLE, 0)] {}

def fK : EthFrame := mkFr 0 3 false false 0 0x7FF 0 0 0 (leBytes 64 (16 * 2^128 + 77 * 2^256))

def status_and_keystone_words_s4 := jm [(F.CRS_JOB_ROLE, 2)] {missedWords := 2}

def planM2 : Nat := (mkPlan { modules := 2, module := 0, keystone := 1, successor := 1, macs := [(mac 0, mac 1), (0x77, 0x78)] }).1

def jm2 (l : List (Fld × Nat)) (x : CrsS) : State := let s := js l x; { s with d := { s.d with crs := { s.d.crs with active := some planM2 } } }

def status_and_keystone_words_s5 := jm2 [(F.CRS_JOB_ROLE, 0)] {}

def fKt : EthFrame := mkFr 0 3 false false 1 0x7FF 0 0 0 (leBytes 64 (16 * 2^128 + 77 * 2^256 + 2 ^ 145))

def pw (l : List (Fld × Nat)) (p : PwrS) : State := { d := { regs := regsOf l, pwr := p } }

def power_management_s1 := pw [(F.PWR_DIE_OP_TRANSITION 1, 1)] { target := [(1, 3)], stretched := [1, 2] }

def pw_G3 (l : List (Fld × Nat)) (p : PwrS) : State := { d := { regs := regsOf ((F.FUSE_SKU_CEILING_W, 900) :: l), pwr := p } }

def power_management_s2 := pw_G3 [(F.FW_PROC_STATE_STATE 4, 2)] {}

def thermal_control_s1 := pw [(F.FW_PROC_STATE_STATE 4, 2),(F.THM_CORE_TEMP_TEMP_C 3, 100),(F.PWR_DIE_OP_THERM_OP 0, 7)] {}

def thermal_control_s2 := pw [] {hot := [259]}

def keyHash : List Nat := [0xf16ea324a154a5b4, 0xdafedf7056564c56, 0xa19433c492d28a3d, 0x1181dabc0b1bc98d]

def kreg (l : List (Fld × Nat)) : List (Fld × Nat) := [(F.LCS_STATE_STATE, 2), (F.FUSE_ROOT_STATUS_VALID, 1)] ++ (List.range 4).map (fun j => (F.FUSE_ROOT_HASH_HASH 0 j, nth 0 keyHash j)) ++ l

def imgLoader : List Byte := leBytes 304 0x55b852781b9995a44c939b64e441ae2724b96f99c8f4fb9a141cfc9842c4b0e30000000000000000000000000000000000000000000000000000000000000000000000000000000000000000000000007fbd5764ef612155bcb35005cddc8cf6357192a5e28e999c9f40612ff4f45f279b482d861d81e5a063d4326c9cff6a1ad82f5a4b39f2552a26bc3ab5f5e5b9ec0000000000000000000000000000000000000000000000000000000000000000510ea37a8f630a5c4fd3dfab87f1a4faf957be467192f63913996f1d50329f48ee7e4b0d9384931c43e9f89bb69a853c1203d1ad671d0c6a2a908828d1f7ba70658c9d81290aecff16a1087ad5420ea5c127d999d02423d902c17c1464e4ebf900000000000000010000003f000100000000000100000130000100014d495950

def bt (l : List (Fld × Nat)) : State := { d := { regs := regsOf (kreg l), flash := { loader := imgLoader }, aux := { perst := false, configOpen := true } } }

def procs : List (Fld × Nat) := (List.range 6).map fun k => (F.FW_PROC_STATE_STATE k, 2)

def clr2 : State := bt ([(F.FW_MBOX_STATUS_STAGE, 8), (F.FW_FEAT_REQ, 0x3f), (F.FW_FEAT_SUP, 0x2f)] ++ procs ++ (List.range 4).map fun k => (F.HOST_PART_STATE_STATE k, 2))

def boot_stages_s1 := { clr2 with d := { clr2.d with macrosUp := true } }

def boot_stages_s2 := { bt [] with d := { (bt []).d with aux := {} } }

def boot_stages_s3 := bt [(F.FW_MBOX_STATUS_STAGE, 11),(F.FW_MBOX_IMAGE_ADDR_ADDR, 0x1000),(F.FW_MBOX_IMAGE_BYTES_BYTES, 544)]

def boot_stages_s4 := { bt [(F.FW_MBOX_STATUS_STAGE, 3),(F.FW_MBOX_STATUS_BUSY, 1)] with d := { (bt [(F.FW_MBOX_STATUS_STAGE, 3),(F.FW_MBOX_STATUS_BUSY, 1)]).d with fw := { fetch := some (5, 544) } } }

def imgRuntime : List Byte := leBytes 544 0x55b852781b9995a44c939b64e441ae2724b96f99c8f4fb9a141cfc9842c4b0e30000000000000000000000000000000555b852781b9995a44c939b64e441ae2724b96f99c8f4fb9a141cfc9842c4b0e30000000000000000000000000000000455b852781b9995a44c939b64e441ae2724b96f99c8f4fb9a141cfc9842c4b0e30000000000000000000000000000000355b852781b9995a44c939b64e441ae2724b96f99c8f4fb9a141cfc9842c4b0e30000000000000000000000000000000255b852781b9995a44c939b64e441ae2724b96f99c8f4fb9a141cfc9842c4b0e30000000000000000000000000000000155b852781b9995a44c939b64e441ae2724b96f99c8f4fb9a141cfc9842c4b0e300000000000000000000000000000000000000000000000000000000000000000000000000000000000000000000000028746ce103db596f835e113d7986fa1b171742efe46e5e96470c2ca02f1d5333c83eb1164d40b5a983384284f05a2906bfed9dd117617ab93e6016d343aa58e200000000000000000000000000000000000000000000000000000000000000009f0f1718eadaca0698fe9b4f2c0667247aa7fb99c8e7e708552ef65a9906bea4ee7e4b0d9384931c43e9f89bb69a853c1203d1ad671d0c6a2a908828d1f7ba70658c9d81290aecff16a1087ad5420ea5c127d999d02423d902c17c1464e4ebf900000000000000060000003f000100000000000100000220000200014d495950

def boot_stages_s5 := { bt [(F.FW_MBOX_STATUS_STAGE, 4),(F.FW_MBOX_STATUS_BUSY, 1)] with d := { (bt [(F.FW_MBOX_STATUS_STAGE, 4),(F.FW_MBOX_STATUS_BUSY, 1)]).d with fw := { image := imgRuntime } } }

def boot_stages_s6 := bt [(F.FW_MBOX_STATUS_STAGE, 2),(F.FW_MBOX_IMAGE_ADDR_ADDR, 0x1000),(F.FW_MBOX_IMAGE_BYTES_BYTES, 544)]

def boot_stages_s7 := { bt [(F.FW_MBOX_STATUS_STAGE, 5)] with d := { (bt [(F.FW_MBOX_STATUS_STAGE, 5)]).d with fw := { image := imgRuntime } } }

def boot_stages_s8 := bt ([(F.FW_MBOX_STATUS_STAGE, 6)] ++ procs)

def boot_stages_s9 := bt ([(F.FW_MBOX_STATUS_STAGE, 7)] ++ procs ++ (List.range 24).map fun k => (F.MEM_STACK_STATE_STATE k, 2))

def clr : State := bt ([(F.FW_MBOX_STATUS_STAGE, 8)] ++ procs)

def boot_stages_s10 := { clr with d := { clr.d with cells := [(5,5)], mem := [(scratchAddr 5 77, 3)] } }

def boot_stages_s11 := { bt [] with d := { (bt []).d with aux := { perst := false, configOpen := true } } }

def boot_stages_s12 := { bt [] with d := { (bt []).d with aux := { perst := false, configOpen := false } } }

def svs (len : Nat) (l : List (Fld × Nat)) : State := bt ([(F.FW_MBOX_STATUS_STAGE, 10), (F.FW_MBOX_IMAGE_BYTES_BYTES, len), (F.FW_FEAT_ON, 0xff), (F.FW_VERSION_SVN, 1)] ++ procs ++ l)

def service_commands_s1 := svs 6 []

def service_commands_b1 := ([1,2,3,4,5,6] : List Byte)

def service_commands_s2 := svs 256 []

def svLc : List Byte := leBytes 256 0x7e98acbecfec8c0d11563d3159da00d5b67318b371ee38456cb373b2881ec08d5661d56a4d899e777fdddd253165d186be562bbdc10edd6ff393a15397167dcaee7e4b0d9384931c43e9f89bb69a853c1203d1ad671d0c6a2a908828d1f7ba70658c9d81290aecff16a1087ad5420ea5c127d999d02423d902c17c1464e4ebf955b852781b9995a44c939b64e441ae2724b96f99c8f4fb9a141cfc9842c4b0e300000000000000000000000000000000000000000000000000000000000000000000000000000000000000000000000000000000000000000000030156535950

def service_commands_s3 := svs 256 []

def svSvn : List Byte := leBytes 256 0x6b89d02529469b0239d8ab68f2016c3766799ed051e775b9adb796cb6ed8da18646e738ad20b7fd2a41eead7ca2efdcb8e894337654aa76acf9e997d6aecaa5cee7e4b0d9384931c43e9f89bb69a853c1203d1ad671d0c6a2a908828d1f7ba70658c9d81290aecff16a1087ad5420ea5c127d999d02423d902c17c1464e4ebf955b852781b9995a44c939b64e441ae2724b96f99c8f4fb9a141cfc9842c4b0e300000000000000000000000000000001000000000000000000000000000000000000000000000000000000000000000000000000000000000000000356535950

def service_commands_s4 := svs 256 [(F.HLT_CAND_DATA 3, 0x85), (F.FUSE_REPAIR_CANDIDATES, 1)]

def svBurn : List Byte := leBytes 256 0xac3e17c1c381ecf3f701ccb6aba1b62812f91b6b3cab240072da795f1033c6dd06a49800a5203e49dd08bac70c32ea71d1d0450feec9110866ef9a93d1b4f6e9ee7e4b0d9384931c43e9f89bb69a853c1203d1ad671d0c6a2a908828d1f7ba70658c9d81290aecff16a1087ad5420ea5c127d999d02423d902c17c1464e4ebf955b852781b9995a44c939b64e441ae2724b96f99c8f4fb9a141cfc9842c4b0e300000000000000000000000000000000000000000000000000000000000000000000000000000000000000000000000000000000000000000000000456535950

def service_commands_s5 := svs 256 []

def svDebug : List Byte := leBytes 256 0x470ba61cd0599abbf25f84db7a211496645ba4aa500ac1b23d3a100edaac5871651ac1985039a7b6f563bcee6f2e26016fa9fc099c41296f587fefdf5e884da9ee7e4b0d9384931c43e9f89bb69a853c1203d1ad671d0c6a2a908828d1f7ba70658c9d81290aecff16a1087ad5420ea5c127d999d02423d902c17c1464e4ebf955b852781b9995a44c939b64e441ae2724b96f99c8f4fb9a141cfc9842c4b0e300000000000000000000000000000000000000000000000000000000000000000000000000000000000000000000000000000000000000000000000656535950

def service_commands_s6 := svs 560 []

def svFlash : List Byte := leBytes 560 0x55b852781b9995a44c939b64e441ae2724b96f99c8f4fb9a141cfc9842c4b0e30000000000000000000000000000000000000000000000000000000000000000000000000000000000000000000000007fbd5764ef612155bcb35005cddc8cf6357192a5e28e999c9f40612ff4f45f279b482d861d81e5a063d4326c9cff6a1ad82f5a4b39f2552a26bc3ab5f5e5b9ec0000000000000000000000000000000000000000000000000000000000000000510ea37a8f630a5c4fd3dfab87f1a4faf957be467192f63913996f1d50329f48ee7e4b0d9384931c43e9f89bb69a853c1203d1ad671d0c6a2a908828d1f7ba70658c9d81290aecff16a1087ad5420ea5c127d999d02423d902c17c1464e4ebf900000000000000010000003f000100000000000100000130000100014d4959500000000000000000000000000000000000000000000000000000000000000000b6d72b64e60b01208cc2e950da2447cd2e31e48300f83106626e71fdf5fbaaa3ede3570f24f70836f05542da146af4e94bb791b993b245c6aae928a01176c186ee7e4b0d9384931c43e9f89bb69a853c1203d1ad671d0c6a2a908828d1f7ba70658c9d81290aecff16a1087ad5420ea5c127d999d02423d902c17c1464e4ebf94418ff8511b5629f6f53453bbee06090f41f0e8fdad083411ba20d071b40684e00000000000000000000013000000000000000000000000000000000000000000000000000000000000000000000000000000000000000000000000556535950

def service_commands_s7 := svs 256 []

def svRevoke : List Byte := leBytes 256 0xde4b2aabc57c038c2804d68f4ee270bd8f6c1a0913fba1f6ca3e7cd8c31da5577242c90f0a6bc54fe5ef3c55ab7950568d3ae111cfeb788577b6306997e07951ee7e4b0d9384931c43e9f89bb69a853c1203d1ad671d0c6a2a908828d1f7ba70658c9d81290aecff16a1087ad5420ea5c127d999d02423d902c17c1464e4ebf955b852781b9995a44c939b64e441ae2724b96f99c8f4fb9a141cfc9842c4b0e300000000000000000000000000000000000000000000000000000000000000000000000000000000000000000000000000000000000000000000010256535950

def fz (l : List (Fld × Nat)) (f : FwS) : State := { d := { regs := regsOf l, fw := f } }

def fz2 : State := let s := fz (procs ++ [(F.FW_FEAT_ON, 0xff), (F.FW_LOG_CTRL_EN, 1), (F.FW_LOG_SEQ, 3), (F.LCS_STATE_STATE, 3)]) {}; { s with d := { s.d with aux := { perst := false }, mem := [(poolAddr 2 (vaultOff + 5), 3)] } }

def fuses_tamper_and_firmware_a1 := (vaultOff + 5:Nat)

def fuses_tamper_and_firmware_s1 := fz procs { burns := [(.lifeCycle 3, true), (.svn 1, false)] }

def fuses_tamper_and_firmware_rest1 := ([(.svn 1, false)] : List (Burn × Bool))

def fuses_tamper_and_firmware_s2 := fz procs { expiries := [(3, [0, 1, 2])] }

def sp : State := fz (procs ++ [(F.FW_MBOX_STATUS_STAGE, 10), (F.LCS_STATE_STATE, 2)]) { sessions := [(1, 1)] }

def spdm_requests_s1 := { sp with z := { setup := { rwl := RegFile.puts [] [(F.HOST_PART_CFG_LAYOUT, 2)] } } }

def ps (a : ModS) : State := { d := { aux := a } }

def power_sequence_s1 := ps { rails := .rising }

def power_sequence_s2 := ps { pwrEn := false, rails := .off }

def power_sequence_s3 := ps { auxOn := false }

def power_sequence_s4 := ps { rails := .off }

def sb (a : ModS) : State := { d := { regs := regsOf (procs ++ [(F.FW_FEAT_ON, 0xff),(F.FUSE_SKU_CEILING_W, 900)]), aux := a } }

def smbus_endpoint_s1 := sb { served := true }

def sb_G2 (a : ModS) : State := { d := { regs := regsOf (procs ++ [(F.FW_FEAT_ON, 0xff)]), aux := a } }

def smbus_endpoint_s2 := sb_G2 { served := false, rails := .off }

def smbus_endpoint_s3 := sb_G2 { served := true, receiver := some 9, events := [(3, [1,2]), (4, [])] }

def smbus_endpoint_e1 := ((3, [1,2]) : Nat × List Byte)

def smbus_endpoint_rest1 := ([(4, [])] : List (Nat × List Byte))

def sQc : State := { pending := [.setupLockClose f0, .setupLockClose f0] }

def commands_run_from_the_queue_c1 := Instr.setupLockClose f0

def commands_run_from_the_queue_rest1 := ([.setupLockClose f0] : List Instr)

def nx (o : Host.Outcome State Fault Refusal) : State := match o with
  | .next t => t
  | .fault _ => {}
  | .refused _ => {}

def tQc : State := nx (step sQc)

def sLq : State := { z := { setup := { locked := true, layout := some 1 } }, pending := [.setupLockClose f0] }

def tLq : State := nx (step sLq)

def sCd : State := { d := { regs := RegFile.puts [] [(F.CTX_STATE_STATE 5, 2)] } }

def hot_core_is_held_s1 := ({ d := { aux := { rails := .good } } } : State)

def hot_core_is_held_s2 := ({ d := { aux := { rails := .good } } } : State)

def hot_core_is_held_s3 := ({ d := { aux := { rails := .good }, regs := RegFile.puts [] [(F.THM_CORE_TEMP_HELD 3,1),(F.CORE_STATE_HOLD_CAUSE 3,4),(F.CORE_STATE_HELD 3,1)] } } : State)

def sDirty : State := { d := { mem := [(scratchAddr 3 7, 1), (poolAddr 2 7, 3), (poolAddr 2 (vaultOff + 7), 3)], cells := [(({} : Dev).rowKeyOf 3 9 1 5, 77), (({} : Dev).rowKeyOf 3 9 0 5, 77)] } }


/-- Where no macro listed has a load waiting, none has. -/
theorem waiting_nil (d : Dev) (h : (d.cim.all fun p => p.2.waiting.isEmpty) = true) : ∀ n m : Nat, (d.macroRun n m).waiting = [] := by
  intro n m
  unfold Dev.macroRun tget
  cases hf : tfind d.cim (n * 68 + m) with
  | none => rfl
  | some r =>
    have hm : (n * 68 + m, r) ∈ d.cim := by
      revert hf
      generalize d.cim = t
      induction t with
      | nil => intro hf; cases hf
      | cons a l ih =>
        intro hf
        obtain ⟨k, v⟩ := a
        simp only [tfind] at hf
        split at hf
        · cases hf; subst_vars; exact List.mem_cons_self
        · exact List.mem_cons_of_mem _ (ih hf)
    simpa using (List.all_eq_true.mp h) _ hm

theorem meets_register_write_by_access_type :
    (Reaches s1 register_write_by_access_type_q1) ∧
    (s1.d.get F.LCS_TAMPER_LATCHED < 2 ^ 6) := by
  unfold Reaches
  decide +kernel

theorem meets_access_errors_are_counted :
    (s0.d.host.d3.contains 1 = false) ∧
    (barAccessOk 2 4 false = false) := by
  decide +kernel

theorem meets_halves_of_a_register :
    (Reaches halves_of_a_register_s1 f0) ∧
    (halves_of_a_register_s1.d.get (F.HOST_FN_BAR4_BASE 0) < 2 ^ 48) := by
  unfold Reaches
  decide +kernel

theorem meets_core_enable_machine :
    (enReaches core_enable_machine_s1.z core_enable_machine_s1.d f0 (SwUnit.core (3 : Fin 256)) = true) ∧
    (core_enable_machine_s1.d.coreState 3 = codeSTARTING) ∧
    (core_enable_machine_s1.d.get (F.CORE_STATE_EN 3) = 1) ∧
    (tfind core_enable_machine_s1.d.starts (unitWord (SwUnit.core (3 : Fin 256))) ≠ some 2) ∧
    (enReaches core_enable_machine_s2.z core_enable_machine_s2.d f0 (SwUnit.core (3 : Fin 256)) = true) ∧
    (core_enable_machine_s2.d.coreState 3 = codeOFF) ∧
    (enReaches core_enable_machine_s3.z core_enable_machine_s3.d f0 (SwUnit.core (3 : Fin 256)) = true) ∧
    (core_enable_machine_s3.d.coreState 3 = codeSTOPPING) ∧
    (core_enable_machine_s3.d.get (F.CORE_STATE_ENABLE_PENDING 3) = 0) ∧
    (tfind core_enable_machine_s3.d.starts (unitWord (SwUnit.core (3 : Fin 256))) = none) := by
  decide +kernel

theorem meets_enable_waits :
    (enReaches enable_waits_s1.z enable_waits_s1.d f0 (SwUnit.core (3 : Fin 256)) = true) ∧
    (enable_waits_s1.d.coreState 3 = codeSTARTING) ∧
    (enReaches enable_waits_s2.z enable_waits_s2.d f0 (SwUnit.core (3 : Fin 256)) = true) ∧
    (enable_waits_s2.d.coreState 3 = codeSTOPPING) := by
  decide +kernel

theorem meets_setup_lock_and_layout :
    (Reaches s0 f0) ∧
    (s0.z.setup.locked = false) ∧
    (∀ (p : Nat), p < 4 → s0.d.partState p = codeOFF) ∧
    ((2 : Fin 4) ≠ 3) ∧
    (setup_lock_and_layout_f1.key ≠ F.HOST_PART_CFG_LAYOUT.key) ∧
    (Reaches s0 f0) ∧
    (s0.z.setup.locked = true ∨ (3 : Fin 4) = 3 ∨ ∃ (p : Nat), p < 4 ∧ s0.d.partState p ≠ codeOFF) := by
  unfold Reaches
  decide +kernel

theorem meets_locked_fields_keep_their_value :
    (Reaches s0 f0) ∧
    (s0.z.setup.locked = false) ∧
    (Reaches sLk f0) ∧
    (sLk.z.setup.locked = true) := by
  unfold Reaches
  decide +kernel

theorem meets_context_commit :
    (sC.d.barOpen (Requester.fn 0) = true) ∧
    (sC.d.ctxState 5 = codeOFF) ∧
    (commitResult sC.z sC.d 5 (List.foldl (fun (a i : Nat) => a + tget 0 sC.d.host.ctxStage i * 2 ^ (64 * i)) 0 (List.range 8)) = 0) ∧
    (∀ (i : Nat), i < 8 → tget 0 sC.d.host.ctxStage i < 2 ^ 64) := by
  decide +kernel

theorem meets_doorbell_by_context_state :
    (doorbell_by_context_state_s1.d.barOpen (Requester.fn (0 : Fin 64)) = true) ∧
    (4 = 4 ∨ 4 = 8) ∧
    (doorbellCtx doorbell_by_context_state_s1.z 0 5 = some 5) ∧
    (doorbell_by_context_state_s1.d.ctxState 5 = codeOFF ∨ doorbell_by_context_state_s1.d.ctxState 5 = codeSTOPPING) ∧
    (doorbell_by_context_state_s2.d.barOpen (Requester.fn (0 : Fin 64)) = true) ∧
    (4 = 4 ∨ 4 = 8) ∧
    (doorbellCtx doorbell_by_context_state_s2.z 0 5 = some 5) ∧
    (doorbell_by_context_state_s2.d.ctxState 5 = codeON) ∧
    (doorbell_by_context_state_s2.d.bit (F.CTX_STATUS_RESIDENT 5) = true) ∧
    ((doorbell_by_context_state_s2.d.ctxRun 5).shadowOut = false) ∧
    (doorbell_by_context_state_s3.d.barOpen (Requester.fn (0 : Fin 64)) = true) ∧
    (4 = 4 ∨ 4 = 8) ∧
    (doorbellCtx doorbell_by_context_state_s3.z 0 5 = some 5) ∧
    (doorbell_by_context_state_s3.d.ctxState 5 = codeON) ∧
    (doorbell_by_context_state_s3.d.bit (F.CTX_STATUS_RESIDENT 5) = true) ∧
    ((doorbell_by_context_state_s3.d.ctxRun 5).shadowOut = true) ∧
    (doorbell_by_context_state_s4.d.barOpen (Requester.fn (0 : Fin 64)) = true) ∧
    (8 = 4 ∨ 8 = 8) ∧
    (doorbellCtx doorbell_by_context_state_s4.z 0 5 = some 5) ∧
    (doorbell_by_context_state_s4.d.ctxState 5 = codeSTARTING) := by
  decide +kernel

theorem meets_shadow_return_fetches :
    ((shadow_return_fetches_s1.d.ctxRun 5).shadowOut = true) ∧
    ((shadow_return_fetches_s1.d.ctxRun 5).again = false) ∧
    ((shadow_return_fetches_s1.d.ctxRun 5).shadowRetry = false) ∧
    ((shadow_return_fetches_s1.d.ctxRun 5).fetchOut = none) ∧
    (shadow_return_fetches_s1.d.ctxState 5 = codeON) ∧
    (shadow_return_fetches_s1.d.bit (F.CTX_STATUS_RESIDENT 5) = true) ∧
    (sub32 3 (shadow_return_fetches_s1.d.get (F.CTX_PROGRESS_FETCHED 5)) ≤ enSize (shadow_return_fetches_s1.d.entry 5)) ∧
    (sub32 (shadow_return_fetches_s1.d.get (F.CTX_PROGRESS_CPL_COUNT 5)) 0 ≤ enSize (shadow_return_fetches_s1.d.entry 5)) := by
  decide +kernel

theorem meets_fetched_descriptors_queue :
    ((fetched_descriptors_queue_s1.d.ctxRun 5).fetchOut = some (4, fetched_descriptors_queue_ds1.length, ent)) ∧
    ((fetched_descriptors_queue_s1.d.ctxRun 5).fetchRetry = false) := by
  decide +kernel

theorem meets_dispatch_of_any_opcode_1 :
    (Dev.canDispatch dispatch_of_any_opcode_s1.z dispatch_of_any_opcode_s1.d 5 = some dispatch_of_any_opcode_q1) ∧
    (Dev.nextTurn dispatch_of_any_opcode_s1.z dispatch_of_any_opcode_s1.d = some 5) ∧
    (dispatch_of_any_opcode_s1.d.waitingCopy 5 = none) ∧
    (dispatch_of_any_opcode_s1.d.joined = false) ∧
    (dispatch_of_any_opcode_q1.bad = false) ∧
    (descOp dispatch_of_any_opcode_q1.desc = 10) ∧
    (fld dispatch_of_any_opcode_q1.desc 16 1 383 = 0) ∧
    (Dev.canDispatch dispatch_of_any_opcode_s2.z dispatch_of_any_opcode_s2.d 5 = some dispatch_of_any_opcode_q2) ∧
    (Dev.nextTurn dispatch_of_any_opcode_s2.z dispatch_of_any_opcode_s2.d = some 5) ∧
    (dispatch_of_any_opcode_s2.d.waitingCopy 5 = none) ∧
    (dispatch_of_any_opcode_s2.d.joined = false) ∧
    (dispatch_of_any_opcode_q2.bad = true) ∧
    (descOp dispatch_of_any_opcode_q2.desc ≠ 8) ∧
    (Dev.canDispatch dispatch_of_any_opcode_s3.z dispatch_of_any_opcode_s3.d 5 = some dispatch_of_any_opcode_q3) ∧
    (Dev.nextTurn dispatch_of_any_opcode_s3.z dispatch_of_any_opcode_s3.d = some 5) ∧
    (dispatch_of_any_opcode_s3.d.waitingCopy 5 = none) ∧
    (dispatch_of_any_opcode_s3.d.joined = false) ∧
    (dispatch_of_any_opcode_q3.bad = true) ∧
    (descOp dispatch_of_any_opcode_q3.desc = 8) ∧
    (Dev.canDispatch dispatch_of_any_opcode_s4.z dispatch_of_any_opcode_s4.d 5 = some dispatch_of_any_opcode_q4) ∧
    (Dev.nextTurn dispatch_of_any_opcode_s4.z dispatch_of_any_opcode_s4.d = some 5) ∧
    (dispatch_of_any_opcode_s4.d.waitingCopy 5 = none) ∧
    (dispatch_of_any_opcode_s4.d.joined = false) ∧
    (dispatch_of_any_opcode_q4.bad = false) ∧
    (descOp dispatch_of_any_opcode_q4.desc = 1) := by
  decide +kernel

theorem meets_dispatch_of_any_opcode_2 :
    (Dev.canDispatch dispatch_of_any_opcode_s5.z dispatch_of_any_opcode_s5.d 5 = some dispatch_of_any_opcode_q5) ∧
    (Dev.nextTurn dispatch_of_any_opcode_s5.z dispatch_of_any_opcode_s5.d = some 5) ∧
    (dispatch_of_any_opcode_s5.d.waitingCopy 5 = none) ∧
    (dispatch_of_any_opcode_s5.d.joined = false) ∧
    (dispatch_of_any_opcode_q5.bad = false) ∧
    (descOp dispatch_of_any_opcode_q5.desc = 2) ∧
    (Dev.canDispatch dispatch_of_any_opcode_s6.z dispatch_of_any_opcode_s6.d 5 = some dispatch_of_any_opcode_q6) ∧
    (Dev.nextTurn dispatch_of_any_opcode_s6.z dispatch_of_any_opcode_s6.d = some 5) ∧
    (dispatch_of_any_opcode_s6.d.waitingCopy 5 = none) ∧
    (dispatch_of_any_opcode_s6.d.joined = false) ∧
    (dispatch_of_any_opcode_q6.bad = false) ∧
    (descOp dispatch_of_any_opcode_q6.desc = 6) ∧
    (Dev.canDispatch dispatch_of_any_opcode_s7.z dispatch_of_any_opcode_s7.d 5 = some dispatch_of_any_opcode_q7) ∧
    (Dev.nextTurn dispatch_of_any_opcode_s7.z dispatch_of_any_opcode_s7.d = some 5) ∧
    (dispatch_of_any_opcode_s7.d.waitingCopy 5 = none) ∧
    (dispatch_of_any_opcode_s7.d.joined = false) ∧
    (dispatch_of_any_opcode_q7.bad = false) ∧
    (descOp dispatch_of_any_opcode_q7.desc = 5) ∧
    (fillBodyOk dispatch_of_any_opcode_q7.desc = true) ∧
    (isHost (fld dispatch_of_any_opcode_q7.desc 16 0 64) = false) ∧
    (rangeStatus dispatch_of_any_opcode_s7.z (taken dispatch_of_any_opcode_s7 5 dispatch_of_any_opcode_q7) (some (enPart dispatch_of_any_opcode_q7.entry)) (fld dispatch_of_any_opcode_q7.desc 16 0 64) (fld dispatch_of_any_opcode_q7.desc 24 0 64) = none) := by
  decide +kernel

theorem meets_event_effects :
    (Turn event_effects_s1 5 event_effects_q1) ∧
    (descOp event_effects_q1.desc = 11) ∧
    (eventBodyOk (event_effects_s1.z.fnOf 5) event_effects_q1.desc = true) ∧
    (fld event_effects_q1.desc 32 0 2 = 0) ∧
    (isHost (fld event_effects_q1.desc 16 0 64) = true) ∧
    (Turn event_effects_s2 5 event_effects_q2) ∧
    (descOp event_effects_q2.desc = 11) ∧
    (eventBodyOk (event_effects_s2.z.fnOf 5) event_effects_q2.desc = true) ∧
    (fld event_effects_q2.desc 32 0 2 = 0) ∧
    (isHost (fld event_effects_q2.desc 16 0 64) = false) ∧
    (rangeStatus event_effects_s2.z (taken event_effects_s2 5 event_effects_q2) (some (enPart event_effects_q2.entry)) (fld event_effects_q2.desc 16 0 64) 8 = none) ∧
    (Turn event_effects_s3 5 event_effects_q3) ∧
    (descOp event_effects_q3.desc = 11) ∧
    (eventBodyOk (event_effects_s3.z.fnOf 5) event_effects_q3.desc = true) ∧
    (fld event_effects_q3.desc 32 0 2 = 1) ∧
    (isHost (fld event_effects_q3.desc 16 0 64) = false) ∧
    ((Dev.bankAtomic event_effects_s3.z (taken event_effects_s3 5 event_effects_q3) true (if fld event_effects_q3.desc 16 0 64 < scratchBase then 66 else 0) (some (enPart event_effects_q3.entry)) false (some event_effects_s3.d.host.nextId) (fld event_effects_q3.desc 16 0 64) 8 (fld event_effects_q3.desc 24 0 64) WordEcc.clean).fst.fst = stOK) ∧
    (Turn event_effects_s4 5 event_effects_q4) ∧
    (descOp event_effects_q4.desc = 11) ∧
    (eventBodyOk (event_effects_s4.z.fnOf 5) event_effects_q4.desc = true) ∧
    (fld event_effects_q4.desc 32 0 2 = 2) := by
  unfold Turn
  decide +kernel

theorem meets_fill_and_copy_1 :
    (Turn fill_and_copy_s1 5 fill_and_copy_q1) ∧
    (descOp fill_and_copy_q1.desc = 5) ∧
    (fillBodyOk fill_and_copy_q1.desc = true) ∧
    (isHost (fld fill_and_copy_q1.desc 16 0 64) = false) ∧
    (rangeStatus fill_and_copy_s1.z (taken fill_and_copy_s1 5 fill_and_copy_q1) (some (enPart fill_and_copy_q1.entry)) (fld fill_and_copy_q1.desc 16 0 64) (fld fill_and_copy_q1.desc 24 0 64) = none) ∧
    (Turn fill_and_copy_s2 5 fill_and_copy_q2) ∧
    (descOp fill_and_copy_q2.desc = 4) ∧
    (copyBodyOk fill_and_copy_q2.desc = true) ∧
    (isHost (fld fill_and_copy_q2.desc 16 0 64) = false) ∧
    (isHost (fld fill_and_copy_q2.desc 24 0 64) = false) ∧
    (copyRefused fill_and_copy_s2.z (taken fill_and_copy_s2 5 fill_and_copy_q2) (enPart fill_and_copy_q2.entry) (fld fill_and_copy_q2.desc 16 0 64) (fld fill_and_copy_q2.desc 24 0 64) (fld fill_and_copy_q2.desc 32 0 64) = none) ∧
    (copyOverlaps (fld fill_and_copy_q2.desc 16 0 64) (fld fill_and_copy_q2.desc 24 0 64) (fld fill_and_copy_q2.desc 32 0 64) = false) ∧
    (fill_and_copy_s2.d.waitingCopy 5 = none) ∧
    (fill_and_copy_s2.d.joined = false) ∧
    (Turn fill_and_copy_s3 5 fill_and_copy_q3) ∧
    (descOp fill_and_copy_q3.desc = 4) ∧
    (copyBodyOk fill_and_copy_q3.desc = true) ∧
    (isHost (fld fill_and_copy_q3.desc 16 0 64) = true) ∧
    (fill_and_copy_s3.d.waitingCopy 5 = none) ∧
    (fill_and_copy_s3.d.joined = false) ∧
    (sCp.d.waitingCopy 5 = some 0) ∧
    (sCp.d.flight 0 = some flP) ∧
    (flP.host = 1) ∧
    (flP.ready = false) ∧
    (isHost (fld flP.desc 16 0 64) = true) ∧
    (isHost (fld flP.desc 24 0 64) = false) ∧
    (fill_and_copy_b1.length = fld flP.desc 32 0 64) ∧
    (rangeStatus sCp.z sCp.d (some flP.partition) (fld flP.desc 24 0 64) fill_and_copy_b1.length = none) := by
  unfold Turn
  decide +kernel

theorem meets_fill_and_copy_2 :
    (Turn sFx 5 fill_and_copy_q4) ∧
    (descOp fill_and_copy_q4.desc = 5) ∧
    (fillBodyOk fill_and_copy_q4.desc = true) ∧
    (isHost (fld fill_and_copy_q4.desc 16 0 64) = false) ∧
    (rangeStatus sFx.z (taken sFx 5 fill_and_copy_q4) (some (enPart fill_and_copy_q4.entry)) (fld fill_and_copy_q4.desc 16 0 64) (fld fill_and_copy_q4.desc 24 0 64) = some (966401196032, 3)) := by
  unfold Turn
  decide +kernel

theorem meets_convert_and_stats :
    (Turn sCv 5 convert_and_stats_q1) ∧
    (descOp convert_and_stats_q1.desc = 6) ∧
    (convertBodyOk convert_and_stats_q1.desc = true) ∧
    ((List.foldl (fun (r : ConvertRun) (i : Nat) => ConvertRun.line sCv.z sCv.d.host.nextId (flightOf sCv 5 convert_and_stats_q1) r i) { d := taken sCv 5 convert_and_stats_q1 } (List.range (cvLines convert_and_stats_q1.desc))).stop = none) ∧
    (Turn sSs 5 convert_and_stats_q2) ∧
    (descOp convert_and_stats_q2.desc = 7) ∧
    (statsBodyOk convert_and_stats_q2.desc = true) ∧
    (firstUnread sSs.z (taken sSs 5 convert_and_stats_q2) (some (enPart convert_and_stats_q2.entry)) (List.map (fun (i : Nat) => (fld convert_and_stats_q2.desc 16 0 64 + i * ssStride convert_and_stats_q2.desc, ceilDiv (ssLE convert_and_stats_q2.desc * fmtWidth (ssFmt convert_and_stats_q2.desc)) 8)) (List.range (ssLines convert_and_stats_q2.desc))) = none) ∧
    (firstRefused sSs.z (List.foldl (fun (d : Dev) (r : Nat × Nat) => d.touch r.fst r.snd) (taken sSs 5 convert_and_stats_q2) (List.map (fun (i : Nat) => (fld convert_and_stats_q2.desc 16 0 64 + i * ssStride convert_and_stats_q2.desc, ceilDiv (ssLE convert_and_stats_q2.desc * fmtWidth (ssFmt convert_and_stats_q2.desc)) 8)) (List.range (ssLines convert_and_stats_q2.desc)))) (some (enPart convert_and_stats_q2.entry)) (List.map (fun (w : TileWrite) => (w.addr, w.bytes)) (ssEntries convert_and_stats_q2.desc (List.map ((List.foldl (fun (d : Dev) (r : Nat × Nat) => d.touch r.fst r.snd) (taken sSs 5 convert_and_stats_q2) (List.map (fun (i : Nat) => (fld convert_and_stats_q2.desc 16 0 64 + i * ssStride convert_and_stats_q2.desc, ceilDiv (ssLE convert_and_stats_q2.desc * fmtWidth (ssFmt convert_and_stats_q2.desc)) 8)) (List.range (ssLines convert_and_stats_q2.desc)))).ssLine convert_and_stats_q2.desc) (List.range (ssLines convert_and_stats_q2.desc))))) = none) := by
  unfold Turn
  decide +kernel

set_option maxRecDepth 100000 in
theorem meets_waiting_descriptors :
    (Turn waiting_descriptors_s1 5 waiting_descriptors_q1) ∧
    (descOp waiting_descriptors_q1.desc = 14) ∧
    (fld waiting_descriptors_q1.desc 24 0 8 = 1) ∧
    (fld waiting_descriptors_q1.desc 25 0 312 = 0) ∧
    ((waiting_descriptors_s1.d.joined && waiting_descriptors_s1.d.jobFailed) = false) ∧
    (waiting_descriptors_s1.d.suspended = false) ∧
    (Turn waiting_descriptors_s2 5 waiting_descriptors_q2) ∧
    (descOp waiting_descriptors_q2.desc = 10) ∧
    (fld waiting_descriptors_q2.desc 16 1 383 = 0) ∧
    (Turn waiting_descriptors_s3 5 waiting_descriptors_q3) ∧
    (descOp waiting_descriptors_q3.desc = 9) ∧
    (fld waiting_descriptors_q3.desc 24 0 320 = 0) ∧
    (waiting_descriptors_s3.d.course < fld waiting_descriptors_q3.desc 16 0 64) ∧
    (Turn waiting_descriptors_s4 5 waiting_descriptors_q4) ∧
    (descOp waiting_descriptors_q4.desc = 14) ∧
    (fld waiting_descriptors_q4.desc 24 0 8 = 0) ∧
    (fld waiting_descriptors_q4.desc 25 0 312 = 0) ∧
    ((waiting_descriptors_s4.d.joined && waiting_descriptors_s4.d.jobFailed) = false) ∧
    (waiting_descriptors_s4.d.checkpointCourse (fld waiting_descriptors_q4.desc 16 0 64) = true) ∧
    (waiting_descriptors_s4.d.course < fld waiting_descriptors_q4.desc 16 0 64) ∧
    (Turn waiting_descriptors_s5 5 waiting_descriptors_q5) ∧
    (descOp waiting_descriptors_q5.desc = 14) ∧
    (fld waiting_descriptors_q5.desc 24 0 8 = 1) ∧
    (fld waiting_descriptors_q5.desc 25 0 312 = 0) ∧
    ((waiting_descriptors_s5.d.joined && waiting_descriptors_s5.d.jobFailed) = false) ∧
    (waiting_descriptors_s5.d.suspended = true) ∧
    (fld waiting_descriptors_q5.desc 16 0 64 = waiting_descriptors_s5.d.get F.CRS_CKPT_COMMITTED) := by
  unfold Turn
  decide +kernel

set_option maxRecDepth 100000 in
theorem meets_plan_load_and_cancel :
    (Turn sPL 5 plan_load_and_cancel_q1) ∧
    (descOp plan_load_and_cancel_q1.desc = 8) ∧
    ((sPL.d.joined && sPL.d.jobFailed) = false) ∧
    (fld plan_load_and_cancel_q1.desc 28 0 1 = 0) ∧
    (fld plan_load_and_cancel_q1.desc 28 1 1 = 1) ∧
    (planLoadBodyOk plan_load_and_cancel_q1.desc = true) ∧
    (planShapeOk plan_load_and_cancel_q1.desc = true) ∧
    (readStatus sPL.z (taken sPL 5 plan_load_and_cancel_q1) (some (enPart plan_load_and_cancel_q1.entry)) (fld plan_load_and_cancel_q1.desc 16 0 64) (fld plan_load_and_cancel_q1.desc 24 0 32) = none) ∧
    (loadStatus sPL.z ((taken sPL 5 plan_load_and_cancel_q1).touch (fld plan_load_and_cancel_q1.desc 16 0 64) (fld plan_load_and_cancel_q1.desc 24 0 32)) (((taken sPL 5 plan_load_and_cancel_q1).touch (fld plan_load_and_cancel_q1.desc 16 0 64) (fld plan_load_and_cancel_q1.desc 24 0 32)).planPart (flightOf sPL 5 plan_load_and_cancel_q1)) ((taken sPL 5 plan_load_and_cancel_q1).peekNat (fld plan_load_and_cancel_q1.desc 16 0 64) (fld plan_load_and_cancel_q1.desc 24 0 32)) (fld plan_load_and_cancel_q1.desc 24 0 32) true (fld plan_load_and_cancel_q1.desc 32 0 64) = 0) ∧
    (Turn sPC 5 plan_load_and_cancel_q2) ∧
    (descOp plan_load_and_cancel_q2.desc = 8) ∧
    ((sPC.d.joined && sPC.d.jobFailed) = false) ∧
    (fld plan_load_and_cancel_q2.desc 28 0 1 = 1) ∧
    (sPC.d.crs.staged.isSome = true) := by
  unfold Turn
  decide +kernel

set_option maxRecDepth 100000 in
theorem meets_join_and_leave_are_armed :
    (Turn sJJ 5 join_and_leave_are_armed_q1) ∧
    (descOp join_and_leave_are_armed_q1.desc = 12) ∧
    (sJJ.d.joined = false) ∧
    (sJJ.d.crs.join = none) ∧
    (joinBodyOk sJJ.z sJJ.d 5 join_and_leave_are_armed_q1.desc = true) ∧
    (sJJ.d.timeState = timeLocked) ∧
    ((sJJ.d.portUp 0 || sJJ.d.portUp 1) = true) ∧
    (sJJ.d.crs.staged = some plan0) ∧
    (sJJ.d.bit F.CRS_PLAN_STATUS_STAGED_FIRST = true) ∧
    (plJob plan0 = fld join_and_leave_are_armed_q1.desc 16 0 16) ∧
    (plModule plan0 = fld join_and_leave_are_armed_q1.desc 18 0 10) ∧
    (sJJ.d.time + 1000000 ≤ anchorTime (fld join_and_leave_are_armed_q1.desc 24 0 64) (fld join_and_leave_are_armed_q1.desc 32 0 64) (fld join_and_leave_are_armed_q1.desc 40 0 9) (fld join_and_leave_are_armed_q1.desc 48 0 64)) ∧
    (Turn join_and_leave_are_armed_s1 5 join_and_leave_are_armed_q2) ∧
    (descOp join_and_leave_are_armed_q2.desc = 13) ∧
    (fld join_and_leave_are_armed_q2.desc 24 0 320 = 0) ∧
    (join_and_leave_are_armed_s1.d.joined = true) ∧
    (fld join_and_leave_are_armed_q2.desc 16 0 64 = 0 ∨ join_and_leave_are_armed_s1.d.course < fld join_and_leave_are_armed_q2.desc 16 0 64) := by
  unfold Turn
  decide +kernel

theorem meets_matrix_swap_and_weight_write :
    (Turn sWW 5 matrix_swap_and_weight_write_q1) ∧
    (descOp matrix_swap_and_weight_write_q1.desc = 2) ∧
    (writeBodyOk matrix_swap_and_weight_write_q1.desc = true) ∧
    (fld matrix_swap_and_weight_write_q1.desc 35 0 9 = 1) ∧
    (fld matrix_swap_and_weight_write_q1.desc 38 0 7 = 1) ∧
    (fld matrix_swap_and_weight_write_q1.desc 30 1 1 = 0) ∧
    (sWW.z.partOfCore (fld matrix_swap_and_weight_write_q1.desc 34 0 8) = enPart matrix_swap_and_weight_write_q1.entry) ∧
    (readStatus sWW.z (taken sWW 5 matrix_swap_and_weight_write_q1) (some (enPart matrix_swap_and_weight_write_q1.entry)) (fld matrix_swap_and_weight_write_q1.desc 16 0 64) (fld matrix_swap_and_weight_write_q1.desc 32 0 10 * srcRowBytes (fld matrix_swap_and_weight_write_q1.desc 31 0 4) (slotWidth (fld matrix_swap_and_weight_write_q1.desc 30 2 3))) = none) ∧
    (((List.range (fld matrix_swap_and_weight_write_q1.desc 32 0 10)).any fun (r : Nat) => rowReserved (fld matrix_swap_and_weight_write_q1.desc 31 0 4) (slotWidth (fld matrix_swap_and_weight_write_q1.desc 30 2 3)) (((taken sWW 5 matrix_swap_and_weight_write_q1).touch (fld matrix_swap_and_weight_write_q1.desc 16 0 64) (fld matrix_swap_and_weight_write_q1.desc 32 0 10 * srcRowBytes (fld matrix_swap_and_weight_write_q1.desc 31 0 4) (slotWidth (fld matrix_swap_and_weight_write_q1.desc 30 2 3)))).peekNat (fld matrix_swap_and_weight_write_q1.desc 16 0 64 + r * srcRowBytes (fld matrix_swap_and_weight_write_q1.desc 31 0 4) (slotWidth (fld matrix_swap_and_weight_write_q1.desc 30 2 3))) (srcRowBytes (fld matrix_swap_and_weight_write_q1.desc 31 0 4) (slotWidth (fld matrix_swap_and_weight_write_q1.desc 30 2 3))))) = false) ∧
    (sWW.d.macroOn (fld matrix_swap_and_weight_write_q1.desc 34 0 8) (fld matrix_swap_and_weight_write_q1.desc 37 0 6) = true) ∧
    (sWW.d.bankOn (fld matrix_swap_and_weight_write_q1.desc 34 0 8) (fld matrix_swap_and_weight_write_q1.desc 37 0 6) (fld matrix_swap_and_weight_write_q1.desc 30 0 1) = true) ∧
    (sWW.d.activeBank (fld matrix_swap_and_weight_write_q1.desc 34 0 8) (fld matrix_swap_and_weight_write_q1.desc 37 0 6) ≠ fld matrix_swap_and_weight_write_q1.desc 30 0 1) ∧
    (sWW.d.macroRun (fld matrix_swap_and_weight_write_q1.desc 34 0 8) (fld matrix_swap_and_weight_write_q1.desc 37 0 6) = { }) ∧
    (Turn matrix_swap_and_weight_write_s1 5 matrix_swap_and_weight_write_q2) ∧
    (descOp matrix_swap_and_weight_write_q2.desc = 3) ∧
    (swapBodyOk matrix_swap_and_weight_write_q2.desc = true) ∧
    (fld matrix_swap_and_weight_write_q2.desc 17 0 9 = 1) ∧
    (fld matrix_swap_and_weight_write_q2.desc 20 0 7 = 1) ∧
    (fld matrix_swap_and_weight_write_q2.desc 21 1 1 = 0) ∧
    (matrix_swap_and_weight_write_s1.z.partOfCore (fld matrix_swap_and_weight_write_q2.desc 16 0 8) = enPart matrix_swap_and_weight_write_q2.entry) ∧
    (Turn sMx 5 matrix_swap_and_weight_write_q3) ∧
    (descOp matrix_swap_and_weight_write_q3.desc = 1) ∧
    (matrixBodyOk matrix_swap_and_weight_write_q3.desc = true) ∧
    (fld matrix_swap_and_weight_write_q3.desc 24 0 1 = 1) ∧
    (fld matrix_swap_and_weight_write_q3.desc 24 1 1 = 1) ∧
    (readStatus sMx.z (taken sMx 5 matrix_swap_and_weight_write_q3) (some (enPart matrix_swap_and_weight_write_q3.entry)) (fld matrix_swap_and_weight_write_q3.desc 16 0 64) 512 = none) ∧
    (opRecordOk sMx.z (((taken sMx 5 matrix_swap_and_weight_write_q3).touch (fld matrix_swap_and_weight_write_q3.desc 16 0 64) 512).peekNat (fld matrix_swap_and_weight_write_q3.desc 16 0 64) 512) (enPart matrix_swap_and_weight_write_q3.entry) true = true) ∧
    (((firstUnread sMx.z ((taken sMx 5 matrix_swap_and_weight_write_q3).touch (fld matrix_swap_and_weight_write_q3.desc 16 0 64) 512) (some (enPart matrix_swap_and_weight_write_q3.entry)) ((actSteps (((taken sMx 5 matrix_swap_and_weight_write_q3).touch (fld matrix_swap_and_weight_write_q3.desc 16 0 64) 512).peekNat (fld matrix_swap_and_weight_write_q3.desc 16 0 64) 512)).map fun (k : Nat) => ((opStep (((taken sMx 5 matrix_swap_and_weight_write_q3).touch (fld matrix_swap_and_weight_write_q3.desc 16 0 64) 512).peekNat (fld matrix_swap_and_weight_write_q3.desc 16 0 64) 512) k).arg64, 768))).isSome || ((taken sMx 5 matrix_swap_and_weight_write_q3).touch (fld matrix_swap_and_weight_write_q3.desc 16 0 64) 512).tablesOk (((taken sMx 5 matrix_swap_and_weight_write_q3).touch (fld matrix_swap_and_weight_write_q3.desc 16 0 64) 512).peekNat (fld matrix_swap_and_weight_write_q3.desc 16 0 64) 512)) = true) ∧
    (((opAllCores (((taken sMx 5 matrix_swap_and_weight_write_q3).touch (fld matrix_swap_and_weight_write_q3.desc 16 0 64) 512).peekNat (fld matrix_swap_and_weight_write_q3.desc 16 0 64) 512)).all fun (n : Nat) => decide (sMx.z.partOfCore n = enPart matrix_swap_and_weight_write_q3.entry)) = true) ∧
    (((taken sMx 5 matrix_swap_and_weight_write_q3).touch (fld matrix_swap_and_weight_write_q3.desc 16 0 64) 512).course < fld matrix_swap_and_weight_write_q3.desc 32 0 64) ∧
    (((List.range (opDrawers (((taken sMx 5 matrix_swap_and_weight_write_q3).touch (fld matrix_swap_and_weight_write_q3.desc 16 0 64) 512).peekNat (fld matrix_swap_and_weight_write_q3.desc 16 0 64) 512))).any fun (dr : Nat) => ((taken sMx 5 matrix_swap_and_weight_write_q3).touch (fld matrix_swap_and_weight_write_q3.desc 16 0 64) 512).gangWhole (((taken sMx 5 matrix_swap_and_weight_write_q3).touch (fld matrix_swap_and_weight_write_q3.desc 16 0 64) 512).peekNat (fld matrix_swap_and_weight_write_q3.desc 16 0 64) 512) dr) = true) := by
  unfold Turn
  decide +kernel

theorem meets_completion_record_is_written :
    (completion_record_is_written_s1.d.flight 0 = some flR) ∧
    (flR.ctx = 5) ∧
    (flR.ready = true) ∧
    (flR.item = none) ∧
    (flR.report = true) ∧
    (flR.isSave = false) ∧
    (descIrq flR.desc = false) ∧
    (completion_record_is_written_s1.d.wall.slots = []) ∧
    (completion_record_is_written_s1.d.wall.waiting = []) ∧
    ((completion_record_is_written_s1.d.ctxRun 5).silent = false) ∧
    ((completion_record_is_written_s1.d.ctxRun 5).fetchOut.isSome = true) ∧
    (completion_record_is_written_s1.d.joined = false) := by
  decide +kernel

theorem meets_rejected_record_faults :
    (rejected_record_faults_s1.d.host.flights = [(0, flR)]) ∧
    (flR.ctx = 5) ∧
    (flR.ready = true) ∧
    (flR.item = none) ∧
    (flR.isSave = false) ∧
    (rejected_record_faults_s1.d.wall.slots = []) ∧
    (rejected_record_faults_s1.d.wall.waiting = []) ∧
    ((rejected_record_faults_s1.d.ctxRun 5).queue = []) ∧
    (enNoVector (rejected_record_faults_s1.d.entry 5) = true) ∧
    (rejected_record_faults_s1.d.ctxState 5 = codeON) ∧
    (rejected_record_faults_s1.d.joined = false) := by
  decide +kernel

theorem meets_host_read_is_retried :
    ((host_read_is_retried_s1.d.ctxRun 5).shadowOut = true) ∧
    ((host_read_is_retried_s1.d.ctxRun 5).shadowRetry = false) ∧
    ((host_read_is_retried_s1.d.ctxRun 5).fetchOut = some (3, 1, ent)) ∧
    ((host_read_is_retried_s1.d.ctxRun 5).fetchRetry = false) ∧
    (host_read_is_retried_s1.d.waitingCopy 5 = some 0) ∧
    (host_read_is_retried_s1.d.flight 0 = some flC) ∧
    (flC.host = 1) := by
  decide +kernel

theorem meets_held_messages_are_sent_as_one :
    ((held_messages_are_sent_as_one_s1.d.ctxRun 5).heldMsg ≠ []) ∧
    ((held_messages_are_sent_as_one_s1.d.ctxRun 5).lastMsg = some 100) := by
  decide +kernel

theorem meets_residency :
    (5 / 8192 = 0) ∧
    (residency_s1.d.schedOn 0 = true) ∧
    (residency_s1.d.pendingOf 0 = [5]) ∧
    (residency_s1.d.ctxState 5 = codeON) ∧
    (residency_s1.d.residents 0 < 1024) ∧
    (residency_s1.d.get (F.CTX_STATUS_RESIDENT 5) = 0) ∧
    (enPriority (residency_s1.d.entry 5) < 4) ∧
    (5 / 8192 = 0) ∧
    (residency_s2.d.schedOn 0 = true) ∧
    ((residency_s2.d.ctxRun 5).evicting = true) ∧
    (residency_s2.d.get (F.CTX_STATUS_RESIDENT 5) = 1) ∧
    (5 / 8192 = 0) ∧
    (rs2.d.schedOn 0 = true) ∧
    (rs2.d.pendingOf 0 ≠ []) ∧
    (1024 ≤ rs2.d.residents 0) ∧
    ((rs2.d.evictable 0).contains 5 = true) ∧
    ((rs2.d.ctxRun 5).lastUse + 1000 * rs2.d.get F.HOST_QS_CFG_IDLE_US ≤ rs2.d.now + 9000000) := by
  decide +kernel

theorem meets_bar4_access :
    (bar4_access_s1.d.barOpen (Requester.fn (3 : Fin 64)) = true) ∧
    (bar4_access_off1 + bar4_access_b1.length ≤ bar4_access_s1.d.bar4Size 3) ∧
    (rangeStatus bar4_access_s1.z bar4_access_s1.d (some (bar4_access_s1.z.partOfFn 3)) (bar4_access_s1.d.get (F.HOST_FN_BAR4_BASE 3) / bar4_access_s1.d.bar4Size 3 * bar4_access_s1.d.bar4Size 3 + bar4_access_off1) bar4_access_b1.length = none) ∧
    (bar4_access_off1 + 4 ≤ bar4_access_s1.d.bar4Size 3) ∧
    (readStatus bar4_access_s1.z bar4_access_s1.d (some (bar4_access_s1.z.partOfFn 3)) (bar4_access_s1.d.get (F.HOST_FN_BAR4_BASE 3) / bar4_access_s1.d.bar4Size 3 * bar4_access_s1.d.bar4Size 3 + bar4_access_off1) 4 = none) ∧
    (bar4_access_s2.d.barOpen (Requester.fn (3 : Fin 64)) = true) ∧
    (bar4_access_off2 + 4 ≤ bar4_access_s2.d.bar4Size 3) ∧
    (readStatus bar4_access_s2.z bar4_access_s2.d (some (bar4_access_s2.z.partOfFn 3)) (bar4_access_s2.d.get (F.HOST_FN_BAR4_BASE 3) / bar4_access_s2.d.bar4Size 3 * bar4_access_s2.d.bar4Size 3 + bar4_access_off2) 4 = some (poolA, stPartitionDenied)) ∧
    (stPartitionDenied ≠ stMemUnavailable) ∧
    (stPartitionDenied ≠ stMemUncorrectable) ∧
    (bar4_access_off2 + bar4_access_b2.length ≤ bar4_access_s2.d.bar4Size 3) ∧
    (rangeStatus bar4_access_s2.z bar4_access_s2.d (some (bar4_access_s2.z.partOfFn 3)) (bar4_access_s2.d.get (F.HOST_FN_BAR4_BASE 3) / bar4_access_s2.d.bar4Size 3 * bar4_access_s2.d.bar4Size 3 + bar4_access_off2) bar4_access_b2.length = some (poolA, stPartitionDenied)) ∧
    (bar4_access_s3.d.barOpen (Requester.fn (3 : Fin 64)) = true) ∧
    (256 + 4 ≤ bar4_access_s3.d.bar4Size 3) ∧
    (readStatus bar4_access_s3.z bar4_access_s3.d (some (bar4_access_s3.z.partOfFn 3)) (bar4_access_s3.d.get (F.HOST_FN_BAR4_BASE 3) / bar4_access_s3.d.bar4Size 3 * bar4_access_s3.d.bar4Size 3 + 256) 4 = some (256, stMemUnavailable)) ∧
    (stMemUnavailable = stMemUnavailable ∨ stMemUnavailable = stMemUncorrectable) := by
  decide +kernel

theorem meets_function_reset_and_power_states :
    (s0.d.host.ctx = []) ∧
    (s0.d.host.d3.contains 4 = false) ∧
    (sOff.d.host.ctx = [(5, function_reset_and_power_states_r1)]) ∧
    (sOff.z.owner 5 = some 0) ∧
    (sOff.d.ctxState 5 = codeOFF) ∧
    (sOff.d.bit (F.CTX_STATUS_PENDING_DB 5) = false) ∧
    (sOff.d.stage ≠ stageFETCHING) ∧
    (function_reset_and_power_states_s1.d.barOpen (Requester.fn (4 : Fin 64)) = false) ∧
    (0 + 4 ≤ function_reset_and_power_states_s1.d.bar4Size 4) := by
  decide +kernel

theorem meets_vector_subtotal_is_the_dot_product :
    (1 ≤ 8) ∧
    (∀ (p : Nat × Nat), p ∈ vector_subtotal_is_the_dot_product_rows1 → p.snd < 2 ^ 8) := by
  decide +kernel

set_option maxRecDepth 100000 in
theorem meets_macro_vector_adds_its_subtotals :
    (VectorTurn macro_vector_adds_its_subtotals_s1 3 0 0 0 o0 0 0 t10 t10) ∧
    ((macro_vector_adds_its_subtotals_s1.d.coreRun 3).queue.length < 16384 ∧ (vectorChunks o0 (macro_vector_adds_its_subtotals_s1.d.coreRun 3) t10 t10 0 0 0 (vectorRows macro_vector_adds_its_subtotals_s1 3 0 0 o0 0)).fst.queue.length ≤ 16384) ∧
    (macro_vector_adds_its_subtotals_s1.d.macroOn 3 0 = true ∧ macro_vector_adds_its_subtotals_s1.d.bankOn 3 0 (macro_vector_adds_its_subtotals_s1.d.activeBank 3 0) = true) ∧
    (opKind o0 = 1 ∨ (macro_vector_adds_its_subtotals_s1.d.macroRun 3 0).checked = some 0 ∨ macro_vector_adds_its_subtotals_s1.d.weightMismatch o0 3 0 = false) ∧
    (((walkedK o0 t10).all fun (kt : Nat) => (List.range (opNCols o0)).all fun (nb : Nat) => ((0, 0) :: (macro_vector_adds_its_subtotals_s1.d.coreRun 3).driven).contains (opMacro o0 kt nb, 31)) = false) ∧
    (VectorTurn macro_vector_adds_its_subtotals_s2 3 0 0 0 o0 0 0 t10 t10) ∧
    ((macro_vector_adds_its_subtotals_s2.d.coreRun 3).queue.length < 16384 ∧ (vectorChunks o0 (macro_vector_adds_its_subtotals_s2.d.coreRun 3) t10 t10 0 0 0 (vectorRows macro_vector_adds_its_subtotals_s2 3 0 0 o0 0)).fst.queue.length ≤ 16384) ∧
    (¬(macro_vector_adds_its_subtotals_s2.d.macroOn 3 0 = true ∧ macro_vector_adds_its_subtotals_s2.d.bankOn 3 0 (macro_vector_adds_its_subtotals_s2.d.activeBank 3 0) = true)) ∧
    (VectorTurn macro_vector_adds_its_subtotals_s3 3 0 0 0 o0 0 0 t10 t10) ∧
    ((macro_vector_adds_its_subtotals_s3.d.coreRun 3).queue.length < 16384 ∧ (vectorChunks o0 (macro_vector_adds_its_subtotals_s3.d.coreRun 3) t10 t10 0 0 0 (vectorRows macro_vector_adds_its_subtotals_s3 3 0 0 o0 0)).fst.queue.length ≤ 16384) ∧
    (macro_vector_adds_its_subtotals_s3.d.macroOn 3 0 = true ∧ macro_vector_adds_its_subtotals_s3.d.bankOn 3 0 (macro_vector_adds_its_subtotals_s3.d.activeBank 3 0) = true) ∧
    (¬(opKind o0 = 1 ∨ (macro_vector_adds_its_subtotals_s3.d.macroRun 3 0).checked = some 0 ∨ macro_vector_adds_its_subtotals_s3.d.weightMismatch o0 3 0 = false)) ∧
    (VectorTurn macro_vector_adds_its_subtotals_s4 3 0 0 0 o0 0 0 t10 t10) ∧
    (16384 ≤ (macro_vector_adds_its_subtotals_s4.d.coreRun 3).queue.length) := by
  refine ⟨?_, ?_, ?_, ?_, ?_, ?_, ?_, ?_, ?_, ?_, ?_, ?_, ?_, ?_⟩ <;> first
    | decide +kernel
    | refine ⟨⟨?_, ?_, ?_⟩, ?_, ?_, ?_, ?_, ?_, ⟨[], ?_⟩, ?_, ?_, ?_, ?_, ?_⟩ <;> decide +kernel

theorem meets_row_attempts_of_a_write :
    ((row_attempts_of_a_write_s1.d.macroRun 3 0).write = some jD) ∧
    (jD.single = false) ∧
    (writesSettle row_attempts_of_a_write_s1 3 = true) ∧
    (jD.row < 512) ∧
    (row_attempts_of_a_write_s1.d.writeStops 3 0 jD = true) ∧
    (row_attempts_of_a_write_s1.d.coreOp 3 = none) ∧
    ((row_attempts_of_a_write_s1.d.macroRun 3 0).waiting = []) ∧
    ((row_attempts_of_a_write_s2.d.macroRun 3 0).write = some jD) ∧
    (jD.single = false) ∧
    (writesSettle row_attempts_of_a_write_s2 3 = true) ∧
    (jD.row < 512) ∧
    (row_attempts_of_a_write_s2.d.writeStops 3 0 jD = false) ∧
    (true = true ∨ row_attempts_of_a_write_s2.d.get F.CIM_PV_MARGIN_MAX_ATTEMPTS ≤ jD.attempt) ∧
    (jD.row < 511) ∧
    ((row_attempts_of_a_write_s3.d.macroRun 3 0).write = some jD) ∧
    (jD.single = false) ∧
    (writesSettle row_attempts_of_a_write_s3 3 = true) ∧
    (jD.row < 512) ∧
    (row_attempts_of_a_write_s3.d.writeStops 3 0 jD = false) ∧
    (¬(false = true ∨ row_attempts_of_a_write_s3.d.get F.CIM_PV_MARGIN_MAX_ATTEMPTS ≤ jD.attempt)) ∧
    ((row_attempts_of_a_write_s4.d.macroRun 3 0).write = some row_attempts_of_a_write_j1) ∧
    (row_attempts_of_a_write_j1.single = false) ∧
    (writesSettle row_attempts_of_a_write_s4 3 = true) ∧
    (row_attempts_of_a_write_j1.row < 512) ∧
    (row_attempts_of_a_write_s4.d.writeStops 3 0 row_attempts_of_a_write_j1 = false) ∧
    (true = true ∨ row_attempts_of_a_write_s4.d.get F.CIM_PV_MARGIN_MAX_ATTEMPTS ≤ row_attempts_of_a_write_j1.attempt) ∧
    (row_attempts_of_a_write_j1.row = 511) ∧
    ((row_attempts_of_a_write_s4.d.macroRun 3 0).waiting = []) ∧
    ((if true = false ∧ row_attempts_of_a_write_s4.d.get F.CIM_PV_MARGIN_MAX_ATTEMPTS ≤ row_attempts_of_a_write_j1.attempt then row_attempts_of_a_write_j1.fails + 1 else row_attempts_of_a_write_j1.fails) = 0 ∨ row_attempts_of_a_write_s4.d.coreOp 3 = none) := by
  decide +kernel

theorem meets_single_pass_write_ends :
    ((single_pass_write_ends_s1.d.macroRun 3 0).write = some jS) ∧
    (jS.single = true) ∧
    (writesSettle single_pass_write_ends_s1 3 = true) ∧
    ((single_pass_write_ends_s1.d.macroRun 3 0).waiting = []) ∧
    (single_pass_write_ends_s1.d.writeStops 3 0 jS = true) ∧
    (single_pass_write_ends_s1.d.coreOp 3 = none) ∧
    ((single_pass_write_ends_s2.d.macroRun 3 0).write = some jS) ∧
    (jS.single = true) ∧
    (writesSettle single_pass_write_ends_s2 3 = true) ∧
    ((single_pass_write_ends_s2.d.macroRun 3 0).waiting = []) ∧
    (single_pass_write_ends_s2.d.writeStops 3 0 jS = false) ∧
    (List.filter (fun (r : Nat) => (List.map (fun (x : Fin 512) => ↑x) single_pass_write_ends_rewriteFails1).contains r) (List.map (fun (x : Fin 512) => ↑x) single_pass_write_ends_firstFails1) = [] ∨ single_pass_write_ends_s2.d.coreOp 3 = none) := by
  decide +kernel

theorem meets_bank_swap_applies :
    ((bank_swap_applies_s1.d.macroRun 3 0).order = OrderItem.swap bank_swap_applies_src1 1 9 :: bank_swap_applies_rest1) ∧
    (1 < 2) ∧
    (bank_swap_applies_s1.d.writeOn 3 0 1 = true) ∧
    (loadsIdle bank_swap_applies_s1 3 = true) ∧
    ((bank_swap_applies_s2.d.macroRun 3 0).order = OrderItem.swap bank_swap_applies_src2 1 9 :: bank_swap_applies_rest2) ∧
    (1 < 2) ∧
    (bank_swap_applies_src2 = some 0) ∧
    (bank_swap_applies_s2.d.flight 0 = some flS) ∧
    (flS.status = stOK) ∧
    (Option.map (fun (x : Nat × Nat) => x.fst) (bank_swap_applies_s2.d.coreOp 3) ≠ some 0) ∧
    (loadsIdle bank_swap_applies_s2 3 = true) ∧
    (bank_swap_applies_s2.d.writeOn 3 0 1 = false) ∧
    ((sSq.d.macroRun 3 ↑m56).order = OrderItem.swap bank_swap_applies_src3 1 0 :: bank_swap_applies_rest3) ∧
    (1 < 2) ∧
    (bank_swap_applies_src3 = none) ∧
    (sSq.d.coreOp 3 = some (0, bank_swap_applies_o1)) ∧
    (sSq.d.flight 0 = some bank_swap_applies_f1) ∧
    (bank_swap_applies_f1.status = stOK) ∧
    ((sSq.d.coreRun 3).loadWriting = none) ∧
    ((sSq.d.coreRun 3).loadSwap = some bank_swap_applies_k1) ∧
    ((sSq.d.coreRun 3).loadLeft = [↑m56]) ∧
    (sSq.d.swapCheck 3 (↑m56) 1 0 = true) ∧
    (sSq.d.writeOn 3 (↑m56) 1 = false) := by
  decide +kernel

theorem meets_chunk_promotion :
    (chunk_promotion_s1.d.coreOp 3 = some (0, o0)) ∧
    (coreT1 o0 3 (chunk_promotion_s1.d.coreRun 3) = some t10) ∧
    (List.find? (fun (c : Chunk) => decide (c.row = 2) && decide (c.col = 4)) (chunk_promotion_s1.d.coreRun 3).queue = some ch0) ∧
    (chunk_promotion_s1.d.coreWorks 3 = true) ∧
    ((chunk_promotion_s1.d.coreRun 3).rowReady o0 3 2 = false) ∧
    (chunk_promotion_s2.d.coreOp 3 = some (0, oA)) ∧
    (coreT1 oA 3 (chunk_promotion_s2.d.coreRun 3) = some t10) ∧
    (List.find? (fun (c : Chunk) => decide (c.row = 2) && decide (c.col = 4)) (chunk_promotion_s2.d.coreRun 3).queue = some ch0) ∧
    (chunk_promotion_s2.d.coreWorks 3 = true) ∧
    ((chunk_promotion_s2.d.coreRun 3).rowReady oA 3 2 = true) ∧
    (((scaleNeed oA 0 (t10.m + 2) (t10.n + 4) ch0.k0).isSome = true → ((scaleNeed oA 0 (t10.m + 2) (t10.n + 4) ch0.k0).bind ((chunk_promotion_s2.d.coreRun 3).scaleOf 0)).isSome = true) ∧ ((scaleNeed oA 1 (t10.m + 2) (t10.n + 4) ch0.k0).isSome = true → ((scaleNeed oA 1 (t10.m + 2) (t10.n + 4) ch0.k0).bind ((chunk_promotion_s2.d.coreRun 3).scaleOf 1)).isSome = true)) ∧
    (chunkFactor oA ch0.aexp ch0.bexp ((scaleNeed oA 0 (t10.m + 2) (t10.n + 4) ch0.k0).bind ((chunk_promotion_s2.d.coreRun 3).scaleOf 0)) ((scaleNeed oA 1 (t10.m + 2) (t10.n + 4) ch0.k0).bind ((chunk_promotion_s2.d.coreRun 3).scaleOf 1)) = Factor.code 0 0) ∧
    (isTail oA 3 (chunk_promotion_s2.d.coreRun 3) = true) ∧
    (chunk_promotion_s3.d.coreOp 3 = some (0, oA)) ∧
    (coreT1 oA 3 (chunk_promotion_s3.d.coreRun 3) = some t10) ∧
    (List.find? (fun (c : Chunk) => decide (c.row = 2) && decide (c.col = 4)) (chunk_promotion_s3.d.coreRun 3).queue = some ch0) ∧
    (chunk_promotion_s3.d.coreWorks 3 = true) ∧
    ((chunk_promotion_s3.d.coreRun 3).rowReady oA 3 2 = true) ∧
    (¬(((scaleNeed oA 0 (t10.m + 2) (t10.n + 4) ch0.k0).isSome = true → ((scaleNeed oA 0 (t10.m + 2) (t10.n + 4) ch0.k0).bind ((chunk_promotion_s3.d.coreRun 3).scaleOf 0)).isSome = true) ∧ ((scaleNeed oA 1 (t10.m + 2) (t10.n + 4) ch0.k0).isSome = true → ((scaleNeed oA 1 (t10.m + 2) (t10.n + 4) ch0.k0).bind ((chunk_promotion_s3.d.coreRun 3).scaleOf 1)).isSome = true))) ∧
    (chunk_promotion_s4.d.coreOp 3 = some (0, oC)) ∧
    (coreT1 oC 3 (chunk_promotion_s4.d.coreRun 3) = some t10) ∧
    (List.find? (fun (c : Chunk) => decide (c.row = 2) && decide (c.col = 4)) (chunk_promotion_s4.d.coreRun 3).queue = some chN) ∧
    (chunk_promotion_s4.d.coreWorks 3 = true) ∧
    ((chunk_promotion_s4.d.coreRun 3).rowReady oC 3 2 = true) ∧
    (((scaleNeed oC 0 (t10.m + 2) (t10.n + 4) chN.k0).isSome = true → ((scaleNeed oC 0 (t10.m + 2) (t10.n + 4) chN.k0).bind ((chunk_promotion_s4.d.coreRun 3).scaleOf 0)).isSome = true) ∧ ((scaleNeed oC 1 (t10.m + 2) (t10.n + 4) chN.k0).isSome = true → ((scaleNeed oC 1 (t10.m + 2) (t10.n + 4) chN.k0).bind ((chunk_promotion_s4.d.coreRun 3).scaleOf 1)).isSome = true)) ∧
    (chunkFactor oC chN.aexp chN.bexp ((scaleNeed oC 0 (t10.m + 2) (t10.n + 4) chN.k0).bind ((chunk_promotion_s4.d.coreRun 3).scaleOf 0)) ((scaleNeed oC 1 (t10.m + 2) (t10.n + 4) chN.k0).bind ((chunk_promotion_s4.d.coreRun 3).scaleOf 1)) = Factor.null) ∧
    (isTail oC 3 (chunk_promotion_s4.d.coreRun 3) = true) := by
  decide +kernel

theorem meets_chain_resume_and_scales :
    (chain_resume_and_scales_s1.d.coreOp 3 = some (0, o0)) ∧
    ((chain_resume_and_scales_s1.d.coreRun 3).link = chain_resume_and_scales_l1 :: chain_resume_and_scales_rest1) ∧
    (chain_resume_and_scales_l1.block = (chain_resume_and_scales_s1.d.coreRun 3).l1) ∧
    ((chain_resume_and_scales_s1.d.coreRun 3).walked = false) ∧
    (chain_resume_and_scales_s1.d.coreWorks 3 = true) ∧
    ((chain_resume_and_scales_s1.d.coreRun 3).totalsUsed + chain_resume_and_scales_l1.totals.length ≤ 8192) ∧
    (isTail o0 3 (chain_resume_and_scales_s1.d.coreRun 3) = true) ∧
    (chain_resume_and_scales_faultAt1 = none) ∧
    (chain_resume_and_scales_s1.d.get (F.CORE_LINK_NEXT_STOPS (3 / 64 * 64 + 3)) = (linkPath (chain_resume_and_scales_s1.d.get (F.CORE_ID_PHYSICAL (3 / 64 * 64 + 3))) (chain_resume_and_scales_s1.d.get (F.CORE_ID_PHYSICAL (3 / 64 * 64 + 3 + 1)))).fst) ∧
    (chain_resume_and_scales_s1.d.get (F.CORE_LINK_NEXT_DIR (3 / 64 * 64 + 3)) = (linkPath (chain_resume_and_scales_s1.d.get (F.CORE_ID_PHYSICAL (3 / 64 * 64 + 3))) (chain_resume_and_scales_s1.d.get (F.CORE_ID_PHYSICAL (3 / 64 * 64 + 3 + 1)))).snd) ∧
    (0 < (linkPath (chain_resume_and_scales_s1.d.get (F.CORE_ID_PHYSICAL (3 / 64 * 64 + 3))) (chain_resume_and_scales_s1.d.get (F.CORE_ID_PHYSICAL (3 / 64 * 64 + 3 + 1)))).fst) ∧
    (linkPartCrossed chain_resume_and_scales_x1 (chain_resume_and_scales_s1.d.get (F.CORE_ID_PHYSICAL (3 / 64 * 64 + 3))) (linkPath (chain_resume_and_scales_s1.d.get (F.CORE_ID_PHYSICAL (3 / 64 * 64 + 3))) (chain_resume_and_scales_s1.d.get (F.CORE_ID_PHYSICAL (3 / 64 * 64 + 3 + 1)))).fst (linkPath (chain_resume_and_scales_s1.d.get (F.CORE_ID_PHYSICAL (3 / 64 * 64 + 3))) (chain_resume_and_scales_s1.d.get (F.CORE_ID_PHYSICAL (3 / 64 * 64 + 3 + 1)))).snd = true) ∧
    (chain_resume_and_scales_s2.d.coreOp 3 = some (0, oA)) ∧
    ((if 0 = 0 then opAScale oA else opBScale oA).mode ≠ 0) ∧
    ((chain_resume_and_scales_s2.d.coreRun 3).scaleOf 0 (0, 0) = none) ∧
    (readStatus chain_resume_and_scales_s2.z chain_resume_and_scales_s2.d (some (chain_resume_and_scales_s2.d.partOf 0)) (scaleAddr (if 0 = 0 then opAScale oA else opBScale oA) 0 0).fst (scaleAddr (if 0 = 0 then opAScale oA else opBScale oA) 0 0).snd = none) ∧
    (sRes.d.coreOp 3 = some (0, chain_resume_and_scales_o1)) ∧
    (coreT1 chain_resume_and_scales_o1 3 (sRes.d.coreRun 3) = some chain_resume_and_scales_t11) ∧
    ((sRes.d.coreRun 3).needResume = true) ∧
    (sRes.d.coreWorks 3 = true) ∧
    ((sRes.d.coreRun 3).totalsUsed + opTM chain_resume_and_scales_o1 1 * opTN chain_resume_and_scales_o1 1 ≤ 8192) ∧
    (rangeStatus sRes.z sRes.d (some (sRes.d.partOf 0)) (spillAddr chain_resume_and_scales_o1 3 (tileOrigin chain_resume_and_scales_o1 (sRes.d.coreRun 3).tile).fst (tileOrigin chain_resume_and_scales_o1 (sRes.d.coreRun 3).tile).snd chain_resume_and_scales_t11) (spillBytes chain_resume_and_scales_o1) = none) ∧
    (fld (sRes.d.peekNat (spillAddr chain_resume_and_scales_o1 3 (tileOrigin chain_resume_and_scales_o1 (sRes.d.coreRun 3).tile).fst (tileOrigin chain_resume_and_scales_o1 (sRes.d.coreRun 3).tile).snd chain_resume_and_scales_t11) 32) 0 0 32 = (sRes.d.coreRun 3).tile % 2 ^ 32 ∧ fld (sRes.d.peekNat (spillAddr chain_resume_and_scales_o1 3 (tileOrigin chain_resume_and_scales_o1 (sRes.d.coreRun 3).tile).fst (tileOrigin chain_resume_and_scales_o1 (sRes.d.coreRun 3).tile).snd chain_resume_and_scales_t11) 32) 16 0 32 = (sRes.d.coreRun 3).gen % 2 ^ 32 ∧ fld (sRes.d.peekNat (spillAddr chain_resume_and_scales_o1 3 (tileOrigin chain_resume_and_scales_o1 (sRes.d.coreRun 3).tile).fst (tileOrigin chain_resume_and_scales_o1 (sRes.d.coreRun 3).tile).snd chain_resume_and_scales_t11) 32) 4 0 32 = chain_resume_and_scales_t11.k ∧ fld (sRes.d.peekNat (spillAddr chain_resume_and_scales_o1 3 (tileOrigin chain_resume_and_scales_o1 (sRes.d.coreRun 3).tile).fst (tileOrigin chain_resume_and_scales_o1 (sRes.d.coreRun 3).tile).snd chain_resume_and_scales_t11) 32) 8 0 16 = opTM chain_resume_and_scales_o1 1 ∧ fld (sRes.d.peekNat (spillAddr chain_resume_and_scales_o1 3 (tileOrigin chain_resume_and_scales_o1 (sRes.d.coreRun 3).tile).fst (tileOrigin chain_resume_and_scales_o1 (sRes.d.coreRun 3).tile).snd chain_resume_and_scales_t11) 32) 10 0 16 = opTN chain_resume_and_scales_o1 1) ∧
    (chain_resume_and_scales_s3.d.coreOp 3 = some (0, chain_resume_and_scales_o2)) ∧
    (coreT1 chain_resume_and_scales_o2 3 (chain_resume_and_scales_s3.d.coreRun 3) = some chain_resume_and_scales_t12) ∧
    ((chain_resume_and_scales_s3.d.coreRun 3).needResume = true) ∧
    (chain_resume_and_scales_s3.d.coreWorks 3 = true) ∧
    ((chain_resume_and_scales_s3.d.coreRun 3).totalsUsed + opTM chain_resume_and_scales_o2 1 * opTN chain_resume_and_scales_o2 1 ≤ 8192) ∧
    (rangeStatus chain_resume_and_scales_s3.z chain_resume_and_scales_s3.d (some (chain_resume_and_scales_s3.d.partOf 0)) (spillAddr chain_resume_and_scales_o2 3 (tileOrigin chain_resume_and_scales_o2 (chain_resume_and_scales_s3.d.coreRun 3).tile).fst (tileOrigin chain_resume_and_scales_o2 (chain_resume_and_scales_s3.d.coreRun 3).tile).snd chain_resume_and_scales_t12) (spillBytes chain_resume_and_scales_o2) = none) ∧
    (¬(fld (chain_resume_and_scales_s3.d.peekNat (spillAddr chain_resume_and_scales_o2 3 (tileOrigin chain_resume_and_scales_o2 (chain_resume_and_scales_s3.d.coreRun 3).tile).fst (tileOrigin chain_resume_and_scales_o2 (chain_resume_and_scales_s3.d.coreRun 3).tile).snd chain_resume_and_scales_t12) 32) 0 0 32 = (chain_resume_and_scales_s3.d.coreRun 3).tile % 2 ^ 32 ∧ fld (chain_resume_and_scales_s3.d.peekNat (spillAddr chain_resume_and_scales_o2 3 (tileOrigin chain_resume_and_scales_o2 (chain_resume_and_scales_s3.d.coreRun 3).tile).fst (tileOrigin chain_resume_and_scales_o2 (chain_resume_and_scales_s3.d.coreRun 3).tile).snd chain_resume_and_scales_t12) 32) 16 0 32 = (chain_resume_and_scales_s3.d.coreRun 3).gen % 2 ^ 32 ∧ fld (chain_resume_and_scales_s3.d.peekNat (spillAddr chain_resume_and_scales_o2 3 (tileOrigin chain_resume_and_scales_o2 (chain_resume_and_scales_s3.d.coreRun 3).tile).fst (tileOrigin chain_resume_and_scales_o2 (chain_resume_and_scales_s3.d.coreRun 3).tile).snd chain_resume_and_scales_t12) 32) 4 0 32 = chain_resume_and_scales_t12.k ∧ fld (chain_resume_and_scales_s3.d.peekNat (spillAddr chain_resume_and_scales_o2 3 (tileOrigin chain_resume_and_scales_o2 (chain_resume_and_scales_s3.d.coreRun 3).tile).fst (tileOrigin chain_resume_and_scales_o2 (chain_resume_and_scales_s3.d.coreRun 3).tile).snd chain_resume_and_scales_t12) 32) 8 0 16 = opTM chain_resume_and_scales_o2 1 ∧ fld (chain_resume_and_scales_s3.d.peekNat (spillAddr chain_resume_and_scales_o2 3 (tileOrigin chain_resume_and_scales_o2 (chain_resume_and_scales_s3.d.coreRun 3).tile).fst (tileOrigin chain_resume_and_scales_o2 (chain_resume_and_scales_s3.d.coreRun 3).tile).snd chain_resume_and_scales_t12) 32) 10 0 16 = opTN chain_resume_and_scales_o2 1)) := by
  decide +kernel

theorem meets_end_of_a_pass_1 :
    (end_of_a_pass_s1.d.coreOp 3 = some (0, o0)) ∧
    (coreT1 o0 3 (end_of_a_pass_s1.d.coreRun 3) = some t10) ∧
    (end_of_a_pass_s1.d.coreWorks 3 = true) ∧
    ((level0 o0 t10).length ≤ (end_of_a_pass_s1.d.coreRun 3).l0) ∧
    ((end_of_a_pass_s1.d.coreRun 3).queue = []) ∧
    ((end_of_a_pass_s1.d.coreRun 3).openChunks = []) ∧
    ((if colValid o0 t10.n = true then List.filter (fun (i : Nat) => rowValid o0 (t10.m + i)) (List.range (opTM o0 1)) else []).all (end_of_a_pass_s1.d.coreRun 3).present.contains = true) ∧
    (isTail o0 3 (end_of_a_pass_s1.d.coreRun 3) = true ∨ (if colValid o0 t10.n = true then List.filter (fun (i : Nat) => rowValid o0 (t10.m + i)) (List.range (opTM o0 1)) else []).all (end_of_a_pass_s1.d.coreRun 3).forwarded.contains = true) ∧
    (opKind o0 = 0 ∨ opK o0 ≤ passEnd o0 t10) ∧
    ((coreLevel1 o0 3 (end_of_a_pass_s1.d.coreRun 3))[(end_of_a_pass_s1.d.coreRun 3).l1 + 1]? = none) ∧
    (end_of_a_pass_s2.d.coreOp 3 = some (0, end_of_a_pass_o1)) ∧
    (coreT1 end_of_a_pass_o1 3 (end_of_a_pass_s2.d.coreRun 3) = some t10) ∧
    (end_of_a_pass_s2.d.coreWorks 3 = true) ∧
    ((level0 end_of_a_pass_o1 t10).length ≤ (end_of_a_pass_s2.d.coreRun 3).l0) ∧
    ((end_of_a_pass_s2.d.coreRun 3).queue = []) ∧
    ((end_of_a_pass_s2.d.coreRun 3).openChunks = []) ∧
    ((if colValid end_of_a_pass_o1 t10.n = true then List.filter (fun (i : Nat) => rowValid end_of_a_pass_o1 (t10.m + i)) (List.range (opTM end_of_a_pass_o1 1)) else []).all (end_of_a_pass_s2.d.coreRun 3).present.contains = true) ∧
    (isTail end_of_a_pass_o1 3 (end_of_a_pass_s2.d.coreRun 3) = true ∨ (if colValid end_of_a_pass_o1 t10.n = true then List.filter (fun (i : Nat) => rowValid end_of_a_pass_o1 (t10.m + i)) (List.range (opTM end_of_a_pass_o1 1)) else []).all (end_of_a_pass_s2.d.coreRun 3).forwarded.contains = true) ∧
    (opKind end_of_a_pass_o1 = 1) ∧
    (passEnd end_of_a_pass_o1 t10 < opK end_of_a_pass_o1) ∧
    ((coreLevel1 end_of_a_pass_o1 3 (end_of_a_pass_s2.d.coreRun 3))[(end_of_a_pass_s2.d.coreRun 3).l1 + 1]? = some end_of_a_pass_t21) ∧
    (sameBlock end_of_a_pass_t21 t10 = false) ∧
    (rangeStatus end_of_a_pass_s2.z end_of_a_pass_s2.d (some (end_of_a_pass_s2.d.partOf 0)) (spillAddr end_of_a_pass_o1 3 (tileOrigin end_of_a_pass_o1 (end_of_a_pass_s2.d.coreRun 3).tile).fst (tileOrigin end_of_a_pass_o1 (end_of_a_pass_s2.d.coreRun 3).tile).snd t10) (spillBytes end_of_a_pass_o1) = none) := by
  decide +kernel

theorem meets_end_of_a_pass_2 :
    (end_of_a_pass_s3.d.coreOp 3 = some (0, end_of_a_pass_o2)) ∧
    (coreT1 end_of_a_pass_o2 3 (end_of_a_pass_s3.d.coreRun 3) = some end_of_a_pass_t11) ∧
    (end_of_a_pass_s3.d.coreWorks 3 = true) ∧
    ((level0 end_of_a_pass_o2 end_of_a_pass_t11).length ≤ (end_of_a_pass_s3.d.coreRun 3).l0) ∧
    ((end_of_a_pass_s3.d.coreRun 3).queue = []) ∧
    ((end_of_a_pass_s3.d.coreRun 3).openChunks = []) ∧
    ((if colValid end_of_a_pass_o2 end_of_a_pass_t11.n = true then List.filter (fun (i : Nat) => rowValid end_of_a_pass_o2 (end_of_a_pass_t11.m + i)) (List.range (opTM end_of_a_pass_o2 1)) else []).all (end_of_a_pass_s3.d.coreRun 3).present.contains = true) ∧
    (isTail end_of_a_pass_o2 3 (end_of_a_pass_s3.d.coreRun 3) = true ∨ (if colValid end_of_a_pass_o2 end_of_a_pass_t11.n = true then List.filter (fun (i : Nat) => rowValid end_of_a_pass_o2 (end_of_a_pass_t11.m + i)) (List.range (opTM end_of_a_pass_o2 1)) else []).all (end_of_a_pass_s3.d.coreRun 3).forwarded.contains = true) ∧
    ((coreLevel1 end_of_a_pass_o2 3 (end_of_a_pass_s3.d.coreRun 3))[(end_of_a_pass_s3.d.coreRun 3).l1 + 1]? = some end_of_a_pass_t22) ∧
    (opKind end_of_a_pass_o2 = 0 ∨ opK end_of_a_pass_o2 ≤ passEnd end_of_a_pass_o2 end_of_a_pass_t11 ∨ sameBlock end_of_a_pass_t22 end_of_a_pass_t11 = true) := by
  decide +kernel

theorem meets_drain_and_replay_1 :
    ((drain_and_replay_s1.d.coreRun 3).flight = some 0) ∧
    (drain_and_replay_s1.d.flight 0 = some fQ) ∧
    ((drain_and_replay_s1.d.coreRun 3).drains = bQ :: drain_and_replay_rest1) ∧
    (drain_and_replay_s1.d.coreWorks 3 = true) ∧
    (drain_and_replay_s1.d.get F.HLT_CHECK_STATUS_MODE_EFF % 2 = 0) ∧
    (bQ.replayDue = false) ∧
    ((drainChain drain_and_replay_s1.z (if false = true then drain_and_replay_s1.d.afterWrites 0 (drain_and_replay_s1.d.drawer 0 (drain_and_replay_s1.d.coreRun 3).drawer).writes else drain_and_replay_s1.d) fQ bQ false).status = stOK) ∧
    (opThreshold fQ.opRec ≠ 0) ∧
    (opThreshold fQ.opRec ≤ (drainChain drain_and_replay_s1.z (if false = true then drain_and_replay_s1.d.afterWrites 0 (drain_and_replay_s1.d.drawer 0 (drain_and_replay_s1.d.coreRun 3).drawer).writes else drain_and_replay_s1.d) fQ bQ false).reqSat) ∧
    ((drain_and_replay_s2.d.coreRun 3).flight = some 0) ∧
    (drain_and_replay_s2.d.flight 0 = some fQ) ∧
    ((drain_and_replay_s2.d.coreRun 3).drains = bQ2 :: drain_and_replay_rest2) ∧
    (drain_and_replay_s2.d.coreWorks 3 = true) ∧
    (drain_and_replay_s2.d.get F.HLT_CHECK_STATUS_MODE_EFF % 2 = 0) ∧
    (Option.any (fun (x : DrainStep) => x.dest) (opOutput fQ.opRec) = false) ∧
    (bQ2.replayDue = true) ∧
    ((drainChain drain_and_replay_s2.z (if true = true then drain_and_replay_s2.d.afterWrites 0 (drain_and_replay_s2.d.drawer 0 (drain_and_replay_s2.d.coreRun 3).drawer).writes else drain_and_replay_s2.d) fQ bQ2 true).status = stOK) ∧
    ((drain_and_replay_s3.d.coreRun 3).flight = some 0) ∧
    (drain_and_replay_s3.d.flight 0 = some drain_and_replay_f1) ∧
    ((drain_and_replay_s3.d.coreRun 3).drains = bD :: drain_and_replay_rest3) ∧
    (drain_and_replay_s3.d.coreWorks 3 = true) ∧
    (drain_and_replay_s3.d.get F.HLT_CHECK_STATUS_MODE_EFF % 2 = 0) ∧
    (Option.any (fun (x : DrainStep) => x.dest) (opOutput drain_and_replay_f1.opRec) = false) ∧
    (bD.replayDue = false) ∧
    ((drainChain drain_and_replay_s3.z (if false = true then drain_and_replay_s3.d.afterWrites 0 (drain_and_replay_s3.d.drawer 0 (drain_and_replay_s3.d.coreRun 3).drawer).writes else drain_and_replay_s3.d) drain_and_replay_f1 bD false).status = stOK) ∧
    (opThreshold drain_and_replay_f1.opRec = 0 ∨ (drainChain drain_and_replay_s3.z (if false = true then drain_and_replay_s3.d.afterWrites 0 (drain_and_replay_s3.d.drawer 0 (drain_and_replay_s3.d.coreRun 3).drawer).writes else drain_and_replay_s3.d) drain_and_replay_f1 bD false).reqSat < opThreshold drain_and_replay_f1.opRec) := by
  decide +kernel

theorem meets_drain_and_replay_2 :
    ((drain_and_replay_s4.d.coreRun 3).flight = some 0) ∧
    (drain_and_replay_s4.d.flight 0 = some drain_and_replay_f2) ∧
    ((drain_and_replay_s4.d.coreRun 3).drains = bD :: drain_and_replay_rest4) ∧
    (drain_and_replay_s4.d.coreWorks 3 = true) ∧
    (drain_and_replay_s4.d.get F.HLT_CHECK_STATUS_MODE_EFF % 2 = 0) ∧
    (opOutput drain_and_replay_f2.opRec = some drain_and_replay_st1) ∧
    (drain_and_replay_st1.dest = true) ∧
    (bD.replayDue = false) ∧
    ((drainChain drain_and_replay_s4.z (if false = true then drain_and_replay_s4.d.afterWrites 0 (drain_and_replay_s4.d.drawer 0 (drain_and_replay_s4.d.coreRun 3).drawer).writes else drain_and_replay_s4.d) drain_and_replay_f2 bD false).status = stOK) ∧
    (opThreshold drain_and_replay_f2.opRec = 0 ∨ (drainChain drain_and_replay_s4.z (if false = true then drain_and_replay_s4.d.afterWrites 0 (drain_and_replay_s4.d.drawer 0 (drain_and_replay_s4.d.coreRun 3).drawer).writes else drain_and_replay_s4.d) drain_and_replay_f2 bD false).reqSat < opThreshold drain_and_replay_f2.opRec) ∧
    (∀ (p : Nat × List Nat), p ∈ (drainChain drain_and_replay_s4.z (if false = true then drain_and_replay_s4.d.afterWrites 0 (drain_and_replay_s4.d.drawer 0 (drain_and_replay_s4.d.coreRun 3).drawer).writes else drain_and_replay_s4.d) drain_and_replay_f2 bD false).images → drain_and_replay_s4.d.macroOn 3 (bitsAt drain_and_replay_st1.arg32 0 6 + p.fst) = true ∧ drain_and_replay_s4.d.bankOn 3 (bitsAt drain_and_replay_st1.arg32 0 6 + p.fst) (1 - drain_and_replay_s4.d.activeBank 3 (bitsAt drain_and_replay_st1.arg32 0 6 + p.fst)) = true) := by
  decide +kernel

theorem meets_streaming_load_is_written :
    (streaming_load_is_written_s1.d.coreOp 3 = some (0, streaming_load_is_written_o1)) ∧
    (opKind streaming_load_is_written_o1 = 1) ∧
    ((streaming_load_is_written_s1.d.coreRun 3).loadWriting = none) ∧
    ((streaming_load_is_written_s1.d.coreRun 3).loadReady = none) ∧
    ((streaming_load_is_written_s1.d.coreRun 3).loadSwap = none) ∧
    (streaming_load_is_written_s1.d.coreOn 3 = true) ∧
    (streaming_load_is_written_s1.d.bit (F.CORE_STATE_HELD 3) = false) ∧
    (List.find? (fun (t : TilePos) => decide (some (loadKey streaming_load_is_written_o1 t) ≠ (streaming_load_is_written_s1.d.coreRun 3).loadActive)) (walkAhead streaming_load_is_written_o1 3 (streaming_load_is_written_s1.d.coreRun 3)) = some streaming_load_is_written_p1) ∧
    (((loadMacros streaming_load_is_written_o1 streaming_load_is_written_p1).all fun (q : Nat × Nat × Nat) => streaming_load_is_written_s1.d.macroOn 3 q.fst && streaming_load_is_written_s1.d.bankOn 3 q.fst (1 - streaming_load_is_written_s1.d.activeBank 3 q.fst)) = true) ∧
    (firstUnread streaming_load_is_written_s1.z streaming_load_is_written_s1.d (some (streaming_load_is_written_s1.d.partOf 0)) (bRanges streaming_load_is_written_o1 streaming_load_is_written_p1 ++ if opCompute streaming_load_is_written_o1 = 2 ∨ opCompute streaming_load_is_written_o1 = 3 then List.map (fun (nf : Nat) => ((opBScale streaming_load_is_written_o1).addr + nf * (opBScale streaming_load_is_written_o1).stride + streaming_load_is_written_p1.k / 32, ceilDiv (min (opK streaming_load_is_written_o1) (streaming_load_is_written_p1.k + opTK streaming_load_is_written_o1 0) - streaming_load_is_written_p1.k) 32)) (List.filter (colValid streaming_load_is_written_o1) (List.map (fun (x : Nat) => streaming_load_is_written_p1.n + x) (List.range (opTN streaming_load_is_written_o1 0)))) else []) = none) := by
  decide +kernel

theorem meets_tile_start :
    (tile_start_s1.d.opOf 0 0 = some tile_start_f1) ∧
    (opRecordOk tile_start_s1.z tile_start_f1.opRec tile_start_f1.partition tile_start_f1.deal = true) ∧
    ((tget { } tile_start_f1.drawers 0).started = false) ∧
    ((tget { } tile_start_f1.drawers 0).abandoned = false) ∧
    (((opCores tile_start_f1.opRec 0).all fun (n : Nat) => (tile_start_s1.d.coreRun n).flight.isNone) = true) ∧
    (tile_start_s1.d.gangWhole tile_start_f1.opRec 0 = true) ∧
    (tile_start_s1.d.gangHeld tile_start_f1.opRec 0 = false) ∧
    (tile_start_s1.d.gangFirst 0 tile_start_f1.opRec 0 = true) ∧
    (haloBefore tile_start_f1.opRec 0 = none) ∧
    (haloOf tile_start_f1.opRec 0 = none) ∧
    (opStage2 tile_start_f1.opRec = false) ∧
    (if tile_start_f1.deal = true then 0 = 0 + (tget { } tile_start_f1.drawers 0).pos * opDrawers tile_start_f1.opRec ∧ 0 < opTiles tile_start_f1.opRec ∧ (1 = if (tget { } tile_start_f1.drawers 0).again = true then tile_start_f1.rerun else 0 + 1) ∧ false = false else (tget { } tile_start_f1.drawers 0).tile = some (0, 1, false)) ∧
    ((opCores tile_start_f1.opRec 0).all (stageable tile_start_s1 tile_start_f1.opRec tile_start_f1.partition 0 0) = true) ∧
    ((nextOf (exec (Instr.tileStart 0 0) tile_start_s1)).d.running 0 = true) := by
  decide +kernel

theorem meets_halo_fetch :
    (halo_fetch_s1.d.opOf 0 0 = some halo_fetch_f1) ∧
    (halo_fetch_f1.deal = false) ∧
    ((tget { } halo_fetch_f1.drawers 0).tile = some (1, 1, false)) ∧
    (haloBefore halo_fetch_f1.opRec 1 = some (0, 2, 2)) ∧
    ((tget { } halo_fetch_f1.drawers 0).started = false) ∧
    ((tget { } halo_fetch_f1.drawers 0).haloDone = false) ∧
    (haloLocal halo_fetch_f1 (tget { } halo_fetch_f1.drawers 0) 1 false = false) ∧
    (rangeStatus halo_fetch_s1.z halo_fetch_s1.d (some halo_fetch_f1.partition) (haloAddr halo_fetch_f1.opRec (1 - 1)) 64 = none) ∧
    (fld (halo_fetch_s1.d.peekNat (haloAddr halo_fetch_f1.opRec (1 - 1)) 64) 0 0 32 = 1 - 1) ∧
    (rangeStatus halo_fetch_s1.z halo_fetch_s1.d (some halo_fetch_f1.partition) (haloAddr halo_fetch_f1.opRec (1 - 1)) (64 + fld (halo_fetch_s1.d.peekNat (haloAddr halo_fetch_f1.opRec (1 - 1)) 64) 8 0 16 * haloRowBytes halo_fetch_f1.opRec) = none) ∧
    (halo_fetch_s2.d.opOf 0 0 = some halo_fetch_f2) ∧
    (halo_fetch_f2.deal = false) ∧
    ((tget { } halo_fetch_f2.drawers 0).tile = some (1, 1, false)) ∧
    (haloBefore halo_fetch_f2.opRec 1 = some (0, 2, 2)) ∧
    ((tget { } halo_fetch_f2.drawers 0).started = false) ∧
    ((tget { } halo_fetch_f2.drawers 0).haloDone = false) ∧
    (haloLocal halo_fetch_f2 (tget { } halo_fetch_f2.drawers 0) 1 false = false) ∧
    (fld (halo_fetch_s2.d.peekNat (haloAddr halo_fetch_f2.opRec (1 - 1)) 64) 0 0 32 ≠ 1 - 1) := by
  decide +kernel

theorem meets_deck_draw :
    (deck_draw_s1.d.opOf 0 0 = some deck_draw_f1) ∧
    (deck_draw_f1.deal = false) ∧
    ((tget { } deck_draw_f1.drawers 0).empty = false) ∧
    ((tget { } deck_draw_f1.drawers 0).next = none) ∧
    ((tget { } deck_draw_f1.drawers 0).cur = none ∨ deck_draw_f1.drawAhead = true ∧ ∃ (h : Hand), (tget { } deck_draw_f1.drawers 0).cur = some h ∧ (tget { } deck_draw_f1.drawers 0).started = true ∧ (tget { } deck_draw_f1.drawers 0).pos + 1 = h.count) ∧
    (deck_draw_s1.d.gangWhole deck_draw_f1.opRec 0 = true) ∧
    (deck_draw_s1.d.gangHeld deck_draw_f1.opRec 0 = false) ∧
    ((deck_draw_s1.d.atomicAdd (opDeck deck_draw_f1.opRec) 8 (opHand deck_draw_f1.opRec)).fst < opTiles deck_draw_f1.opRec) ∧
    ((tget { } deck_draw_f1.drawers 0).cur = none) ∧
    (deck_draw_s2.d.opOf 0 0 = some deck_draw_f2) ∧
    (deck_draw_f2.deal = false) ∧
    ((tget { } deck_draw_f2.drawers 0).empty = false) ∧
    ((tget { } deck_draw_f2.drawers 0).next = none) ∧
    ((tget { } deck_draw_f2.drawers 0).cur = none ∨ deck_draw_f2.drawAhead = true ∧ ∃ (h : Hand), (tget { } deck_draw_f2.drawers 0).cur = some h ∧ (tget { } deck_draw_f2.drawers 0).started = true ∧ (tget { } deck_draw_f2.drawers 0).pos + 1 = h.count) ∧
    (deck_draw_s2.d.gangWhole deck_draw_f2.opRec 0 = true) ∧
    (deck_draw_s2.d.gangHeld deck_draw_f2.opRec 0 = false) ∧
    (opTiles deck_draw_f2.opRec ≤ (deck_draw_s2.d.atomicAdd (opDeck deck_draw_f2.opRec) 8 (opHand deck_draw_f2.opRec)).fst) ∧
    (sDa.d.opOf 0 0 = some deck_draw_f3) ∧
    (deck_draw_f3.deal = false) ∧
    ((tget { } deck_draw_f3.drawers 0).empty = false) ∧
    ((tget { } deck_draw_f3.drawers 0).next = none) ∧
    ((tget { } deck_draw_f3.drawers 0).cur = none ∨ deck_draw_f3.drawAhead = true ∧ ∃ (h : Hand), (tget { } deck_draw_f3.drawers 0).cur = some h ∧ (tget { } deck_draw_f3.drawers 0).started = true ∧ (tget { } deck_draw_f3.drawers 0).pos + 1 = h.count) ∧
    (sDa.d.gangWhole deck_draw_f3.opRec 0 = true) ∧
    (sDa.d.gangHeld deck_draw_f3.opRec 0 = false) ∧
    ((sDa.d.atomicAdd (opDeck deck_draw_f3.opRec) 8 (opHand deck_draw_f3.opRec)).fst < opTiles deck_draw_f3.opRec) ∧
    ((tget { } deck_draw_f3.drawers 0).cur ≠ none) := by
  refine ⟨?_, ?_, ?_, ?_, ?_, ?_, ?_, ?_, ?_, ?_, ?_, ?_, ?_, ?_, ?_, ?_, ?_, ?_, ?_, ?_, ?_, ?_, ?_, ?_, ?_, ?_⟩ <;> first
    | decide +kernel
    | (refine Or.inr ⟨by decide +kernel, _, rfl, ?_, ?_⟩ <;> decide +kernel)

theorem meets_tile_claim_1 :
    (sSt.d.opOf 0 0 = some tile_claim_f1) ∧
    (tile_claim_f1.deal = false) ∧
    ((tget { } tile_claim_f1.drawers 0).tile = none) ∧
    ((true = false ∧ ∃ (h : Hand), (tget { } tile_claim_f1.drawers 0).cur = some h ∧ 0 = h.first + (tget { } tile_claim_f1.drawers 0).pos) ∨ true = true ∧ (tget { } tile_claim_f1.drawers 0).cur = none ∧ ∃ (p : Nat × Nat × Nat), (tget { } tile_claim_f1.drawers 0).target = some p ∧ 0 = p.snd.snd) ∧
    (sSt.d.gangWhole tile_claim_f1.opRec 0 = true) ∧
    (sSt.d.gangHeld tile_claim_f1.opRec 0 = false) ∧
    (((opCores tile_claim_f1.opRec 0).all fun (n : Nat) => (sSt.d.coreRun n).flight.isNone) = true) ∧
    (sSt.d.gangFirst 0 tile_claim_f1.opRec 0 = true) ∧
    (claimTaken (claimState tile_claim_f1.opSeq (sSt.d.peekNat (claimAddr tile_claim_f1.opRec 0) 8)) = false) ∧
    (claimTaken (claimState tile_claim_f1.opSeq ((sSt.d.atomicAdd (opDeck tile_claim_f1.opRec + 24) 8 1).snd.atomicSwap (claimAddr tile_claim_f1.opRec 0) 8 (claimWord claimStarted 0 tile_claim_f1.opSeq (sSt.d.atomicAdd (opDeck tile_claim_f1.opRec + 24) 8 1).fst)).fst) = false) ∧
    (sSl.d.opOf 0 0 = some tile_claim_f2) ∧
    (tile_claim_f2.deal = false) ∧
    ((tget { } tile_claim_f2.drawers 0).tile = none) ∧
    ((true = false ∧ ∃ (h : Hand), (tget { } tile_claim_f2.drawers 0).cur = some h ∧ 0 = h.first + (tget { } tile_claim_f2.drawers 0).pos) ∨ true = true ∧ (tget { } tile_claim_f2.drawers 0).cur = none ∧ ∃ (p : Nat × Nat × Nat), (tget { } tile_claim_f2.drawers 0).target = some p ∧ 0 = p.snd.snd) ∧
    (sSl.d.gangWhole tile_claim_f2.opRec 0 = true) ∧
    (sSl.d.gangHeld tile_claim_f2.opRec 0 = false) ∧
    (((opCores tile_claim_f2.opRec 0).all fun (n : Nat) => (sSl.d.coreRun n).flight.isNone) = true) ∧
    (sSl.d.gangFirst 0 tile_claim_f2.opRec 0 = true) ∧
    (claimTaken (claimState tile_claim_f2.opSeq (sSl.d.peekNat (claimAddr tile_claim_f2.opRec 0) 8)) = true) ∧
    (true = true) := by
  refine ⟨?_, ?_, ?_, ?_, ?_, ?_, ?_, ?_, ?_, ?_, ?_, ?_, ?_, ?_, ?_, ?_, ?_, ?_, ?_, ?_⟩ <;> first
    | decide +kernel
    | (refine Or.inl ⟨rfl, _, rfl, ?_⟩
       decide +kernel)
    | (refine Or.inr ⟨rfl, by decide +kernel, _, rfl, ?_⟩
       decide +kernel)

theorem meets_tile_claim_2 :
    (sCl.d.opOf 0 0 = some tile_claim_f3) ∧
    (tile_claim_f3.deal = false) ∧
    ((tget { } tile_claim_f3.drawers 0).tile = none) ∧
    ((false = false ∧ ∃ (h : Hand), (tget { } tile_claim_f3.drawers 0).cur = some h ∧ 0 = h.first + (tget { } tile_claim_f3.drawers 0).pos) ∨ false = true ∧ (tget { } tile_claim_f3.drawers 0).cur = none ∧ ∃ (p : Nat × Nat × Nat), (tget { } tile_claim_f3.drawers 0).target = some p ∧ 0 = p.snd.snd) ∧
    (sCl.d.gangWhole tile_claim_f3.opRec 0 = true) ∧
    (sCl.d.gangHeld tile_claim_f3.opRec 0 = false) ∧
    (((opCores tile_claim_f3.opRec 0).all fun (n : Nat) => (sCl.d.coreRun n).flight.isNone) = true) ∧
    (sCl.d.gangFirst 0 tile_claim_f3.opRec 0 = true) ∧
    (claimTaken (claimState tile_claim_f3.opSeq (sCl.d.peekNat (claimAddr tile_claim_f3.opRec 0) 8)) = true) ∧
    (false = false) ∧
    ((tget { } tile_claim_f3.drawers 0).cur = some tile_claim_h1) ∧
    ((tget { } tile_claim_f3.drawers 0).pos + 1 < tile_claim_h1.count) := by
  refine ⟨?_, ?_, ?_, ?_, ?_, ?_, ?_, ?_, ?_, ?_, ?_, ?_⟩ <;> first
    | decide +kernel
    | (refine Or.inl ⟨rfl, _, rfl, ?_⟩
       decide +kernel)
    | (refine Or.inr ⟨rfl, by decide +kernel, _, rfl, ?_⟩
       decide +kernel)

theorem meets_tile_finish :
    (tile_finish_s1.d.opOf 0 0 = some tile_finish_f1) ∧
    (opRecordOk tile_finish_s1.z tile_finish_f1.opRec tile_finish_f1.partition tile_finish_f1.deal = true) ∧
    (∀ (n m : Nat), (tile_finish_s1.d.macroRun n m).waiting = []) ∧
    (tile_finish_f1.deal = false → (tget { } tile_finish_f1.drawers 0).next = none) ∧
    ((tget { } tile_finish_f1.drawers 0).tile = some (0, 1, false)) ∧
    ((tget { } tile_finish_f1.drawers 0).started = true) ∧
    ((tget { } tile_finish_f1.drawers 0).abandoned = false) ∧
    (((opChain tile_finish_f1.opRec).all fun (st : DrainStep) => decide (st.type ≠ 7)) = true) ∧
    (((opCores tile_finish_f1.opRec 0).all fun (n : Nat) => decide ((tile_finish_s1.d.coreRun n).flight = some 0) && (tile_finish_s1.d.coreRun n).walked && decide ((tile_finish_s1.d.coreRun n).drains = []) && !tile_finish_f1.left.any fun (k : Nat) => decide (k / 68 = n)) = true) ∧
    (firstRefused tile_finish_s1.z tile_finish_s1.d (some tile_finish_f1.partition) (List.map (fun (x : TileWrite) => (x.addr, x.bytes)) (tget { } tile_finish_f1.drawers 0).writes) = none) ∧
    (tile_finish_f1.deal = true) ∧
    (3 ∈ opCores tile_finish_f1.opRec 0) ∧
    (tile_finish_s2.d.opOf 0 0 = some tile_finish_f2) ∧
    (opRecordOk tile_finish_s2.z tile_finish_f2.opRec tile_finish_f2.partition tile_finish_f2.deal = true) ∧
    (∀ (n m : Nat), (tile_finish_s2.d.macroRun n m).waiting = []) ∧
    (tile_finish_f2.deal = false → (tget { } tile_finish_f2.drawers 0).next = none) ∧
    ((tget { } tile_finish_f2.drawers 0).tile = some (0, 1, false)) ∧
    ((tget { } tile_finish_f2.drawers 0).started = true) ∧
    ((tget { } tile_finish_f2.drawers 0).abandoned = false) ∧
    (((opChain tile_finish_f2.opRec).all fun (st : DrainStep) => decide (st.type ≠ 7)) = true) ∧
    (((opCores tile_finish_f2.opRec 0).all fun (n : Nat) => decide ((tile_finish_s2.d.coreRun n).flight = some 0) && (tile_finish_s2.d.coreRun n).walked && decide ((tile_finish_s2.d.coreRun n).drains = []) && !tile_finish_f2.left.any fun (k : Nat) => decide (k / 68 = n)) = true) ∧
    (firstRefused tile_finish_s2.z tile_finish_s2.d (some tile_finish_f2.partition) (List.map (fun (x : TileWrite) => (x.addr, x.bytes)) (tget { } tile_finish_f2.drawers 0).writes) = none) ∧
    (tile_finish_f2.deal = false) ∧
    (¬if tile_finish_f2.deal = true then tile_finish_f2.finished + 1 = opTiles tile_finish_f2.opRec else (((List.foldl (fun (d : Dev) (x : TileWrite) => d.tileWrite 0 x) tile_finish_s2.d (tget { } tile_finish_f2.drawers 0).writes).storeNat none (claimAddr tile_finish_f2.opRec 0) 8 (claimWord claimDone 0 tile_finish_f2.opSeq 1)).atomicAdd (opDeck tile_finish_f2.opRec + 8) 8 1).fst + 1 = opTiles tile_finish_f2.opRec) := by
  refine ⟨?_, ?_, ?_, ?_, ?_, ?_, ?_, ?_, ?_, ?_, ?_, ?_, ?_, ?_, ?_, ?_, ?_, ?_, ?_, ?_, ?_, ?_, ?_, ?_⟩ <;> first
    | exact waiting_nil _ (by decide +kernel)
    | decide +kernel

theorem meets_steal_return_and_stall_1 :
    (sRt.d.opOf 0 0 = some steal_return_and_stall_f1) ∧
    ((tget { } steal_return_and_stall_f1.drawers 0).tile = some (0, 1, false)) ∧
    ((tget { } steal_return_and_stall_f1.drawers 0).abandoned = true) ∧
    ((sRt.d.atomicSwap (claimAddr steal_return_and_stall_f1.opRec 0) 8 (claimWord claimReturned 0 steal_return_and_stall_f1.opSeq 1)).fst = claimWord claimStarted 0 steal_return_and_stall_f1.opSeq 1) ∧
    (0 = 0) ∧
    (¬((List.range (opDrawers steal_return_and_stall_f1.opRec)).any (sRt.d.progressing steal_return_and_stall_f1) = false ∨ steal_return_and_stall_f1.deal = true ∧ ((List.range (opDrawers steal_return_and_stall_f1.opRec)).any fun (x : Nat) => steal_return_and_stall_f1.hasWork x && !sRt.d.gangWhole steal_return_and_stall_f1.opRec x) = true)) ∧
    (steal_return_and_stall_s1.d.opOf 0 0 = some steal_return_and_stall_f2) ∧
    (steal_return_and_stall_f2.deal = false) ∧
    ((tget { } steal_return_and_stall_f2.drawers 0).empty = true) ∧
    ((tget { } steal_return_and_stall_f2.drawers 0).cur = none) ∧
    ((tget { } steal_return_and_stall_f2.drawers 0).next = none) ∧
    ((tget { } steal_return_and_stall_f2.drawers 0).tile = none) ∧
    ((tget { } steal_return_and_stall_f2.drawers 0).target = none) ∧
    ((tget { } steal_return_and_stall_f2.drawers 0).stopped = false) ∧
    (steal_return_and_stall_s1.d.gangWhole steal_return_and_stall_f2.opRec 0 = true) ∧
    (steal_return_and_stall_s1.d.gangHeld steal_return_and_stall_f2.opRec 0 = false) ∧
    (((opChain steal_return_and_stall_f2.opRec).all fun (st : DrainStep) => decide (st.type ≠ 7)) = true) ∧
    (steal_return_and_stall_f2.stealEn = false ∨ List.find? (fun (p : Nat × Nat × Nat) => searchAfter (tget { } steal_return_and_stall_f2.drawers 0).lostAt p && decide (p.snd.snd < opTiles steal_return_and_stall_f2.opRec) && !claimTaken (claimState steal_return_and_stall_f2.opSeq (steal_return_and_stall_s1.d.peekNat (claimAddr steal_return_and_stall_f2.opRec p.snd.snd) 8))) (steal_return_and_stall_s1.d.searchList steal_return_and_stall_f2 0) = none) ∧
    (sSt_D7.d.opOf 0 0 = some steal_return_and_stall_f3) ∧
    (0 = 0) ∧
    ((List.range (opDrawers steal_return_and_stall_f3.opRec)).any (sSt_D7.d.progressing steal_return_and_stall_f3) = false ∨ steal_return_and_stall_f3.deal = true ∧ ((List.range (opDrawers steal_return_and_stall_f3.opRec)).any fun (x : Nat) => steal_return_and_stall_f3.hasWork x && !sSt_D7.d.gangWhole steal_return_and_stall_f3.opRec x) = true) ∧
    (∀ (n m : Nat), (sSt_D7.d.macroRun n m).waiting = []) := by
  refine ⟨?_, ?_, ?_, ?_, ?_, ?_, ?_, ?_, ?_, ?_, ?_, ?_, ?_, ?_, ?_, ?_, ?_, ?_, ?_, ?_, ?_, ?_⟩ <;> first
    | exact waiting_nil _ (by decide +kernel)
    | decide +kernel

theorem meets_steal_return_and_stall_2 :
    (steal_return_and_stall_s2.d.opOf 0 0 = some f2) ∧
    (f2.deal = false) ∧
    ((tget { } f2.drawers 0).empty = true) ∧
    ((tget { } f2.drawers 0).cur = none) ∧
    ((tget { } f2.drawers 0).next = none) ∧
    ((tget { } f2.drawers 0).tile = none) ∧
    ((tget { } f2.drawers 0).target = none) ∧
    ((tget { } f2.drawers 0).stopped = false) ∧
    (steal_return_and_stall_s2.d.gangWhole f2.opRec 0 = true) ∧
    (steal_return_and_stall_s2.d.gangHeld f2.opRec 0 = false) ∧
    (f2.stealEn = true) ∧
    (List.find? (fun (p : Nat × Nat × Nat) => searchAfter (tget { } f2.drawers 0).lostAt p && decide (p.snd.snd < opTiles f2.opRec) && !claimTaken (claimState f2.opSeq (steal_return_and_stall_s2.d.peekNat (claimAddr f2.opRec p.snd.snd) 8))) (steal_return_and_stall_s2.d.searchList f2 0) = some steal_return_and_stall_p1) := by
  refine ⟨?_, ?_, ?_, ?_, ?_, ?_, ?_, ?_, ?_, ?_, ?_, ?_⟩ <;> first
    | exact waiting_nil _ (by decide +kernel)
    | decide +kernel

theorem meets_level0_commands :
    (level0Source level0_commands_q1 = true) ∧
    ((sL0.d.coreRun 3).flight = none) ∧
    (∀ (f : Fin 64), level0_commands_q1 ≠ Requester.fn f) ∧
    (sL0.d.coreWorks 3 = true) ∧
    (256 % 32 = 0) ∧
    (256 + 32 ≤ 524288) ∧
    (level0Ok (sL0.d.peekNat (scratchAddr 3 256) 32) = true) ∧
    (fld (sL0.d.peekNat (scratchAddr 3 256) 32) 0 0 32 + (fld (sL0.d.peekNat (scratchAddr 3 256) 32) 5 0 6 + 1) * 64 * fmtWidth (fld (sL0.d.peekNat (scratchAddr 3 256) 32) 4 0 5) ≤ 524288) ∧
    (fld (sL0.d.peekNat (scratchAddr 3 256) 32) 16 0 32 % 8 = 0) ∧
    (fld (sL0.d.peekNat (scratchAddr 3 256) 32) 16 0 32 + 8 * ((fld (sL0.d.peekNat (scratchAddr 3 256) 32) 5 0 6 + 1) * (List.filter (fun (m : Nat) => decide (bitsAt (fld (sL0.d.peekNat (scratchAddr 3 256) 32) 8 0 64) m 1 = 1)) (List.range 64)).length * (128 / List.foldl (fun (a m : Nat) => max a (slotWidth (sL0.d.get (cimSLOT 3 m (sL0.d.activeBank 3 m))))) 1 (List.filter (fun (m : Nat) => decide (bitsAt (fld (sL0.d.peekNat (scratchAddr 3 256) 32) 8 0 64) m 1 = 1)) (List.range 64))) * (512 / tapRows (fld (sL0.d.peekNat (scratchAddr 3 256) 32) 6 0 3))) ≤ 524288) ∧
    (∀ (m : Nat), m ∈ List.filter (fun (m : Nat) => decide (bitsAt (fld (sL0.d.peekNat (scratchAddr 3 256) 32) 8 0 64) m 1 = 1)) (List.range 64) → sL0.d.macroOn 3 m = true ∧ sL0.d.bankOn 3 m (sL0.d.activeBank 3 m) = true) ∧
    (level0_commands_a1 < scratchAddr 3 (fld (sL0.d.peekNat (scratchAddr 3 256) 32) 16 0 32) ∨ scratchAddr 3 (fld (sL0.d.peekNat (scratchAddr 3 256) 32) 16 0 32) + 8 * ((fld (sL0.d.peekNat (scratchAddr 3 256) 32) 5 0 6 + 1) * (List.filter (fun (m : Nat) => decide (bitsAt (fld (sL0.d.peekNat (scratchAddr 3 256) 32) 8 0 64) m 1 = 1)) (List.range 64)).length * (128 / List.foldl (fun (a m : Nat) => max a (slotWidth (sL0.d.get (cimSLOT 3 m (sL0.d.activeBank 3 m))))) 1 (List.filter (fun (m : Nat) => decide (bitsAt (fld (sL0.d.peekNat (scratchAddr 3 256) 32) 8 0 64) m 1 = 1)) (List.range 64))) * (512 / tapRows (fld (sL0.d.peekNat (scratchAddr 3 256) 32) 6 0 3))) ≤ level0_commands_a1) ∧
    (∀ (f : Fin 64), level0_commands_q2 ≠ Requester.fn f) ∧
    (sL0.d.coreWorks 3 = true) ∧
    ((sL0.d.coreRun 3).flight = none) ∧
    (272 % 32 ≠ 0 ∨ 524288 < 272 + 32) ∧
    (level0Source level0_commands_q3 = true) ∧
    ((level0_commands_s1.d.coreRun 3).flight ≠ none) ∧
    (f0 = Requester.fn (0 : Fin 64)) := by
  decide +kernel

theorem meets_bank_cycle_1 :
    (↑b7 < arrBanks (arrOf pl1)) ∧
    (∀ (x : BankClaim), x ∈ bank_cycle_claims1 → x.master < arrMasters (arrOf pl1)) ∧
    ((List.map (fun (x : BankClaim) => x.master) bank_cycle_claims1).Nodup) ∧
    (clR ∈ bank_cycle_claims1) ∧
    (sBk.d.bankBusy (bankKey (arrOf pl1) ↑b7) = false) ∧
    (∀ (x : BankClaim), x ∈ bank_cycle_claims1 → robin (arrMasters (arrOf pl1)) (tget (arrMasters (arrOf pl1) - 1) sBk.d.pool.lastGrant (bankKey (arrOf pl1) ↑b7)) clR.master ≤ robin (arrMasters (arrOf pl1)) (tget (arrMasters (arrOf pl1) - 1) sBk.d.pool.lastGrant (bankKey (arrOf pl1) ↑b7)) x.master) ∧
    (clR.flight = none) ∧
    (arrBanks (arrOf pl1) * arrWord (arrOf pl1) * (clR.row + 1) ≤ if arrOf pl1 < 256 then 524288 else if arrOf pl1 < 260 then 50331648 else 4194304) ∧
    (clR.op = BankOp.read) ∧
    (portStatus sBk.z sBk.d (wordAddr (arrOf pl1) (↑b7) clR.row) clR.master (Option.map (fun (x : Fin 4) => ↑x) clR.partition) clR.proc0 = stOK) ∧
    (sBk.d.inWipe (wordAddr (arrOf pl1) (↑b7) clR.row) = false) ∧
    (↑b7 < arrBanks (arrOf spB)) ∧
    (∀ (x : BankClaim), x ∈ bank_cycle_claims2 → x.master < arrMasters (arrOf spB)) ∧
    ((List.map (fun (x : BankClaim) => x.master) bank_cycle_claims2).Nodup) ∧
    (clS ∈ bank_cycle_claims2) ∧
    (tfind sBs.d.pool.busy (bankKey (arrOf spB) ↑b7) = some 3) ∧
    (clT ∈ bank_cycle_claims2) ∧
    (arrOf spB < 256) ∧
    (↑b7 < arrBanks (arrOf pl1)) ∧
    (∀ (x : BankClaim), x ∈ bank_cycle_claims3 → x.master < arrMasters (arrOf pl1)) ∧
    ((List.map (fun (x : BankClaim) => x.master) bank_cycle_claims3).Nodup) ∧
    (clW ∈ bank_cycle_claims3) ∧
    (sBk.d.bankBusy (bankKey (arrOf pl1) ↑b7) = false) ∧
    (∀ (x : BankClaim), x ∈ bank_cycle_claims3 → robin (arrMasters (arrOf pl1)) (tget (arrMasters (arrOf pl1) - 1) sBk.d.pool.lastGrant (bankKey (arrOf pl1) ↑b7)) clW.master ≤ robin (arrMasters (arrOf pl1)) (tget (arrMasters (arrOf pl1) - 1) sBk.d.pool.lastGrant (bankKey (arrOf pl1) ↑b7)) x.master) ∧
    (clW.flight = none) ∧
    (arrBanks (arrOf pl1) * arrWord (arrOf pl1) * (clW.row + 1) ≤ if arrOf pl1 < 256 then 524288 else if arrOf pl1 < 260 then 50331648 else 4194304) ∧
    (clW.op = BankOp.write bank_cycle_bytes1) ∧
    (portStatus sBk.z sBk.d (wordAddr (arrOf pl1) (↑b7) clW.row) clW.master (Option.map (fun (x : Fin 4) => ↑x) clW.partition) clW.proc0 = stOK) ∧
    (sBk.d.inWipe (wordAddr (arrOf pl1) (↑b7) clW.row) = false) := by
  decide +kernel

theorem meets_bank_cycle_2 :
    (↑b7 < arrBanks (arrOf pl1)) ∧
    (∀ (x : BankClaim), x ∈ bank_cycle_claims4 → x.master < arrMasters (arrOf pl1)) ∧
    ((List.map (fun (x : BankClaim) => x.master) bank_cycle_claims4).Nodup) ∧
    (clR ∈ bank_cycle_claims4) ∧
    (bank_cycle_s1.d.bankBusy (bankKey (arrOf pl1) ↑b7) = false) ∧
    (∀ (x : BankClaim), x ∈ bank_cycle_claims4 → robin (arrMasters (arrOf pl1)) (tget (arrMasters (arrOf pl1) - 1) bank_cycle_s1.d.pool.lastGrant (bankKey (arrOf pl1) ↑b7)) clR.master ≤ robin (arrMasters (arrOf pl1)) (tget (arrMasters (arrOf pl1) - 1) bank_cycle_s1.d.pool.lastGrant (bankKey (arrOf pl1) ↑b7)) x.master) ∧
    (clR.flight = none) ∧
    (arrBanks (arrOf pl1) * arrWord (arrOf pl1) * (clR.row + 1) ≤ if arrOf pl1 < 256 then 524288 else if arrOf pl1 < 260 then 50331648 else 4194304) ∧
    (clR.op = BankOp.read) ∧
    (portStatus bank_cycle_s1.z bank_cycle_s1.d (wordAddr (arrOf pl1) (↑b7) clR.row) clR.master (Option.map (fun (x : Fin 4) => ↑x) clR.partition) clR.proc0 ≠ stOK) ∧
    (↑b7 < arrBanks (arrOf pl1)) ∧
    (∀ (x : BankClaim), x ∈ bank_cycle_claims5 → x.master < arrMasters (arrOf pl1)) ∧
    ((List.map (fun (x : BankClaim) => x.master) bank_cycle_claims5).Nodup) ∧
    (clW ∈ bank_cycle_claims5) ∧
    (bank_cycle_s2.d.bankBusy (bankKey (arrOf pl1) ↑b7) = false) ∧
    (∀ (x : BankClaim), x ∈ bank_cycle_claims5 → robin (arrMasters (arrOf pl1)) (tget (arrMasters (arrOf pl1) - 1) bank_cycle_s2.d.pool.lastGrant (bankKey (arrOf pl1) ↑b7)) clW.master ≤ robin (arrMasters (arrOf pl1)) (tget (arrMasters (arrOf pl1) - 1) bank_cycle_s2.d.pool.lastGrant (bankKey (arrOf pl1) ↑b7)) x.master) ∧
    (clW.flight = none) ∧
    (arrBanks (arrOf pl1) * arrWord (arrOf pl1) * (clW.row + 1) ≤ if arrOf pl1 < 256 then 524288 else if arrOf pl1 < 260 then 50331648 else 4194304) ∧
    (clW.op = BankOp.write bank_cycle_bytes2) ∧
    (portStatus bank_cycle_s2.z bank_cycle_s2.d (wordAddr (arrOf pl1) (↑b7) clW.row) clW.master (Option.map (fun (x : Fin 4) => ↑x) clW.partition) clW.proc0 ≠ stOK) ∧
    (↑b7 < arrBanks (arrOf pl1)) ∧
    (∀ (x : BankClaim), x ∈ bank_cycle_claims6 → x.master < arrMasters (arrOf pl1)) ∧
    ((List.map (fun (x : BankClaim) => x.master) bank_cycle_claims6).Nodup) ∧
    (clR ∈ bank_cycle_claims6) ∧
    (tfind bank_cycle_s3.d.pool.busy (bankKey (arrOf pl1) ↑b7) = some 5) ∧
    (clO ∈ bank_cycle_claims6) ∧
    (256 ≤ arrOf pl1) ∧
    (arrOf pl1 < 260) := by
  decide +kernel

theorem meets_atomics :
    (atomicStatus sBk.z sBk.d (if false = true then none else Option.map (fun (x : Fin 4) => ↑x) atomics_part1) atomics_a1 (atomBytes atomics_w1) ≠ stOK) ∧
    (atomicStatus atomics_s1.z atomics_s1.d (if false = true then none else Option.map (fun (x : Fin 4) => ↑x) atomics_part2) atomics_a2 (atomBytes atomics_w2) = stOK) ∧
    (false = false) ∧
    (atomics_s1.d.region atomics_a2 = Region.pool 1 vaultOff) ∧
    (vaultOff ≤ vaultOff) ∧
    (atomicStatus sBk.z sBk.d (if false = true then none else Option.map (fun (x : Fin 4) => ↑x) atomics_part3) atomics_a3 (atomBytes atomics_w3) = stOK) ∧
    (false = true ∨ ∀ (x off : Nat), sBk.d.region atomics_a3 = Region.pool x off → off < vaultOff) ∧
    (sBk.d.inWipe atomics_a3 = false) := by
  refine ⟨?_, ?_, ?_, ?_, ?_, ?_, ?_, ?_⟩ <;> first
    | decide +kernel
    | (refine Or.inr ?_
       intro x off h
       have e : sBk.d.region atomics_a3 = Region.pool 1 (wordAddr 257 7 2 - poolAddr 1 0) := by decide +kernel
       rw [e] at h
       cases h
       decide +kernel)

theorem meets_patrol_writeback_and_borrow :
    (sPtB.d.bit (F.POOL_DP_SCRUB_EN 1) = true) ∧
    (sPtB.d.bankBusy (bankKey (256 + 1) (9 % 192)) = false) ∧
    (sPtB.d.bankBusy (bankKey (arrOf pl1) ↑b7) = true) ∧
    (tfind sPtB.d.pool.borrows (arrOf pl1 * 4 + 1) = some bor) ∧
    (bor.phase ≠ 1) ∧
    (patrol_writeback_and_borrow_s1.d.bit (F.POOL_DP_SCRUB_EN 1) = false ∨ patrol_writeback_and_borrow_s1.d.bankBusy (bankKey (256 + 1) (9 % 192)) = true) ∧
    (patrol_writeback_and_borrow_s1.d.bankBusy (bankKey (arrOf pl1) ↑b7) = false) ∧
    (List.find? (fun (x : Nat × Nat × Nat) => decide (x.fst = bankKey (arrOf pl1) ↑b7)) patrol_writeback_and_borrow_s1.d.pool.writeBack = some patrol_writeback_and_borrow_x1) := by
  decide +kernel

theorem meets_vault_wipe :
    (vaultOff ≤ vault_wipe_a1) ∧
    (vault_wipe_a1 < vaultOff + 1048576) ∧
    (f0 ≠ Requester.proc 0) ∧
    (sVw.d.vaultWiping 2 = true) ∧
    (true = true) ∧
    (sVw.d.vaultWiping 2 = true) ∧
    (false = false) := by
  decide +kernel

theorem meets_stack_read :
    (stack_read_s1.d.region 5120 = Region.wall 0 5120) ∧
    (accessStatus stack_read_s1.z stack_read_s1.d (Option.map (fun (x : Fin 4) => ↑x) stack_read_part1) 5120 = stOK) ∧
    (stack_read_s1.d.slotOf 0 (wallPlace (stack_read_s1.d.wallParity 0) 5120).fst = none) ∧
    (((List.range 12).all fun (k : Nat) => !stack_read_s1.d.unitBad 0 (wallPlace (stack_read_s1.d.wallParity 0) 5120).fst k) = true) ∧
    (stack_read_s1.d.missing 0 (wallPlace (stack_read_s1.d.wallParity 0) 5120).fst ≠ some (wallPlace (stack_read_s1.d.wallParity 0) 5120).snd.snd.fst ∨ stack_read_other1 = none) ∧
    (stack_read_s1.d.missing 0 (wallPlace (stack_read_s1.d.wallParity 0) 5120).fst ≠ some (wallPlace (stack_read_s1.d.wallParity 0) 5120).snd.snd.fst) ∧
    (stack_read_s1.d.wallParity 0 = true) ∧
    (stack_read_s1.d.wallState 0 = 1) ∧
    (stack_read_s1.d.missing 0 (wallPlace (stack_read_s1.d.wallParity 0) 5120).fst = none) ∧
    (stack_read_s1.d.stripeWaits 0 (wallPlace (stack_read_s1.d.wallParity 0) 5120).fst = false) ∧
    (sMs.d.region 5120 = Region.wall 0 5120) ∧
    (accessStatus sMs.z sMs.d (Option.map (fun (x : Fin 4) => ↑x) stack_read_part2) 5120 = stOK) ∧
    (sMs.d.slotOf 0 (wallPlace (sMs.d.wallParity 0) 5120).fst = none) ∧
    (((List.range 12).all fun (k : Nat) => !sMs.d.unitBad 0 (wallPlace (sMs.d.wallParity 0) 5120).fst k) = true) ∧
    (sMs.d.missing 0 (wallPlace (sMs.d.wallParity 0) 5120).fst ≠ some (wallPlace (sMs.d.wallParity 0) 5120).snd.snd.fst ∨ stack_read_other2 = none) ∧
    (sMs.d.missing 0 (wallPlace (sMs.d.wallParity 0) 5120).fst = some (wallPlace (sMs.d.wallParity 0) 5120).snd.snd.fst) ∧
    (stack_read_s2.d.region 5120 = Region.wall 0 5120) ∧
    (accessStatus stack_read_s2.z stack_read_s2.d (Option.map (fun (x : Fin 4) => ↑x) stack_read_part3) 5120 ≠ stOK) ∧
    (stack_read_s3.d.region 5120 = Region.wall 0 5120) ∧
    (accessStatus stack_read_s3.z stack_read_s3.d (Option.map (fun (x : Fin 4) => ↑x) stack_read_part4) 5120 = stOK) ∧
    (stack_read_s3.d.missing 0 (wallPlace (stack_read_s3.d.wallParity 0) 5120).fst ≠ some (wallPlace (stack_read_s3.d.wallParity 0) 5120).snd.snd.fst) ∧
    (stack_read_s3.d.wallParity 0 = false) := by
  decide +kernel

theorem meets_wall_writes_1 :
    (sWq.d.region 51200 = Region.wall 0 51200) ∧
    (rangeStatus sWq.z sWq.d (Option.map (fun (x : Fin 4) => ↑x) wall_writes_part1) 51200 wall_writes_bytes1.length = none) ∧
    (sWq.d.wallParity 0 = true) ∧
    (wall_writes_bytes1 ≠ []) ∧
    (51200 + wall_writes_bytes1.length ≤ sWq.d.wallSize 0) ∧
    (51200 % 2816 + wall_writes_bytes1.length ≤ 2816) ∧
    (¬(51200 / 2816 ∈ List.map (fun (x : Fin 100663296) => ↑x) wall_writes_held1 ∨ sWq.d.stripeWaits 0 (51200 / 2816) = true)) ∧
    (wall_writes_bytes1.length < 2816) ∧
    (sWq.d.slotOf 0 (51200 / 2816) = none) ∧
    ((List.filter (fun (t : Slot) => decide (homeDie t.wall t.stripe = homeDie 0 (51200 / 2816))) sWq.d.wall.slots).length < 256) ∧
    (sWq.d.get F.MEM_ASM_CFG_TIMEOUT_NS ≠ 0) ∧
    (sWq.d.slotOf 0 4 = some wall_writes_sl1) ∧
    (wall_writes_sl1.wall = 0) ∧
    (wall_writes_sl1.stripe = 4) ∧
    (sWq.d.stripeWaits 0 4 = false) ∧
    (sWq.d.region 5120 = Region.wall 0 5120) ∧
    (rangeStatus sWq.z sWq.d (Option.map (fun (x : Fin 4) => ↑x) wall_writes_part2) 5120 wall_writes_bytes2.length = none) ∧
    (sWq.d.wallParity 0 = true) ∧
    (wall_writes_bytes2 ≠ []) ∧
    (5120 + wall_writes_bytes2.length ≤ sWq.d.wallSize 0) ∧
    (5120 % 2816 + wall_writes_bytes2.length ≤ 2816) ∧
    (5120 / 2816 ∈ List.map (fun (x : Fin 100663296) => ↑x) wall_writes_held2 ∨ sWq.d.stripeWaits 0 (5120 / 2816) = true) ∧
    (List.find? (fun (r : WallReq) => decide (r.wall = 0) && decide (r.stripe = 1)) sWq.d.wall.waiting = some wr) := by
  decide +kernel

theorem meets_wall_writes_2 :
    (wall_writes_s1.d.region 0 = Region.wall 0 0) ∧
    (rangeStatus wall_writes_s1.z wall_writes_s1.d (Option.map (fun (x : Fin 4) => ↑x) wall_writes_part3) 0 wall_writes_bytes3.length = none) ∧
    (wall_writes_s1.d.wallParity 0 = true) ∧
    (wall_writes_bytes3 ≠ []) ∧
    (0 + wall_writes_bytes3.length ≤ wall_writes_s1.d.wallSize 0) ∧
    (0 % 2816 + wall_writes_bytes3.length ≤ 2816) ∧
    (¬(0 / 2816 ∈ List.map (fun (x : Fin 100663296) => ↑x) wall_writes_held3 ∨ wall_writes_s1.d.stripeWaits 0 (0 / 2816) = true)) ∧
    (wall_writes_bytes3.length = 2816) ∧
    (sWc.d.slotOf 0 4 = some wall_writes_sl2) ∧
    (wall_writes_sl2.wall = 0) ∧
    (wall_writes_sl2.stripe = 4) ∧
    (sWc.d.stripeWaits 0 4 = true) := by
  decide +kernel

theorem meets_parity_is_kept :
    (Memory.wf parity_is_kept_d1.mem = true) ∧
    (parity_is_kept_d1.wallParity 0 = true) ∧
    (parity_is_kept_d1.get (F.MEM_WALL_STATUS_MISSING 0) = 15) ∧
    (3 < 11) ∧
    (9 < 256) := by
  decide +kernel

theorem meets_rebuild_step :
    (MemoryOk rebuild_step_s1) ∧
    (rebuild_step_s1.d.wallState 0 = 3) ∧
    (rebuild_step_s1.d.get (F.MEM_WALL_STATUS_MISSING 0) < 12) ∧
    (rebuild_step_s1.d.stripeWaits 0 (rebuild_step_s1.d.get (F.MEM_WALL_REBUILD_STRIPE 0)) = false) ∧
    (5 < 256) ∧
    (∀ (b : Nat), b < 256 → rebuild_step_k1 ≠ stackKey (12 * 0 + rebuild_step_s1.d.get (F.MEM_WALL_STATUS_MISSING 0)) (rebuild_step_s1.d.get (F.MEM_WALL_REBUILD_STRIPE 0)) b) ∧
    (rebuild_step_s1.d.othersBad 0 (rebuild_step_s1.d.get (F.MEM_WALL_REBUILD_STRIPE 0)) (rebuild_step_s1.d.get (F.MEM_WALL_STATUS_MISSING 0)) = []) ∧
    (MemoryOk sRb) ∧
    (sRb.d.wallState 0 = 3) ∧
    (sRb.d.get (F.MEM_WALL_STATUS_MISSING 0) < 12) ∧
    (sRb.d.stripeWaits 0 (sRb.d.get (F.MEM_WALL_REBUILD_STRIPE 0)) = true) ∧
    (sRb.d.wall.waiting.contains { wall := 0, stripe := sRb.d.get (F.MEM_WALL_REBUILD_STRIPE 0), work := WallWork.rebuild } = false) := by
  unfold MemoryOk
  decide +kernel

theorem meets_stack_link_patrol_and_temperature :
    (stack_link_patrol_and_temperature_s1.d.get (F.MEM_STACK_STATE_STATE 5) = codeON) ∧
    (stack_link_patrol_and_temperature_s1.d.bit F.MEM_SCRUB_EN = true) ∧
    (stack_link_patrol_and_temperature_s1.d.missing (5 / 12) 7 ≠ some (5 % 12)) ∧
    (stack_link_patrol_and_temperature_s1.d.unitBad (5 / 12) 7 (5 % 12) = false) ∧
    (true = true) ∧
    (stack_link_patrol_and_temperature_s1.d.powered = true) ∧
    (86 < stack_link_patrol_and_temperature_s1.d.get F.THM_LIMITS2_STACK_TRIP_C) ∧
    (85 < 86) ∧
    (stack_link_patrol_and_temperature_s2.d.powered = true) ∧
    (80 < stack_link_patrol_and_temperature_s2.d.get F.THM_LIMITS2_STACK_TRIP_C) ∧
    (80 ≤ 83) := by
  decide +kernel

theorem meets_macro_slices :
    (tfind sM1.d.hlt.slices 3 = some macro_slices_sl1) ∧
    (macro_slices_sl1.phase = 1) ∧
    (macro_slices_sl1.spare ≠ sM1.d.dutyMacro 3 macro_slices_sl1.macroIx) ∧
    (macro_slices_sl1.spare < 68) ∧
    (sM1.d.dutyMacro 3 macro_slices_sl1.macroIx < 68) ∧
    (sM1.d.get (F.CORE_ID_PHYSICAL 3) < 66) ∧
    (0 < 2) ∧
    (5 < 512) ∧
    (macro_slices_s1.d.bit F.HLT_SLICE_CFG_EN = true) ∧
    (macro_slices_s1.d.isOn (SwUnit.proc 5) = true) ∧
    (tfind macro_slices_s1.d.hlt.slices 3 = none) ∧
    ((macro_slices_s1.d.hlt.coreMoves.any fun (x : Nat × Nat) => decide (x.fst = 3)) = false) ∧
    (macro_slices_s1.d.hlt.targeted = [3 * 68 + 0]) ∧
    (0 < 68) ∧
    (macro_slices_s1.d.sliceReady 3 0 = true) ∧
    (macro_slices_s1.d.freeMacros 3 = 64 :: macro_slices_rest1) ∧
    (tfind macro_slices_s2.d.hlt.slices 3 = some macro_slices_sl2) ∧
    (macro_slices_sl2.phase = 3) ∧
    (macro_slices_sl2.te = false) ∧
    (tfind macro_slices_s3.d.hlt.slices 3 = some macro_slices_sl3) ∧
    (macro_slices_sl3.phase = 4) ∧
    (macro_slices_sl3.due = false) ∧
    (macro_slices_sl3.restart = []) ∧
    ((macro_slices_s3.d.macroRun 3 macro_slices_sl3.macroIx).write = none) := by
  decide +kernel

theorem meets_bank_slices :
    (arrOf bank_slices_arr1 < 260) ∧
    (bank_slices_s1.d.bit (if arrOf bank_slices_arr1 < 256 then F.HLT_SLICE_CFG_SP_EN else F.HLT_SLICE_CFG_DP_EN) = true) ∧
    (bank_slices_s1.d.isOn (SwUnit.proc 5) = true) ∧
    (15 < arrBanks (arrOf bank_slices_arr1)) ∧
    (bank_slices_s1.d.bankBorrowed (arrOf bank_slices_arr1) 15 = false) ∧
    ((List.any bank_slices_s1.d.pool.borrows fun (p : Nat × Borrow) => decide (p.fst / 4 = arrOf bank_slices_arr1) && decide (p.snd.why = 0)) = false) ∧
    (bank_slices_s1.d.freeBanks (arrOf bank_slices_arr1) = 0 :: bank_slices_rest1) ∧
    (tfind bank_slices_s2.d.pool.borrows (arrOf bank_slices_arr2 * 4 + 2) = some bb2) ∧
    (bb2.phase = 1) ∧
    (bb2.why = 0) := by
  decide +kernel

theorem meets_known_sum_check :
    (kss.d.ksDue 3 0 = true) ∧
    (kss.d.macroOn 3 0 = true) ∧
    ((Option.map (fun (x : BitVec 32) => x.toNat) known_sum_check_found1).getD (ksObserved kss.d 3 0 (kss.d.activeBank 3 0) 1) = kss.d.get (if 1 = 0 then ksEven 3 0 (kss.d.activeBank 3 0) else ksOdd 3 0 (kss.d.activeBank 3 0))) ∧
    (kss.d.hlt.ksRepeat.contains ((3 * 68 + 0) * 2 + 1) = false) ∧
    (kss.d.ksDue 3 0 = true) ∧
    (kss.d.macroOn 3 0 = true) ∧
    ((Option.map (fun (x : BitVec 32) => x.toNat) known_sum_check_found2).getD (ksObserved kss.d 3 0 (kss.d.activeBank 3 0) 1) ≠ kss.d.get (if 1 = 0 then ksEven 3 0 (kss.d.activeBank 3 0) else ksOdd 3 0 (kss.d.activeBank 3 0))) ∧
    (kss.d.hlt.ksRepeat.contains ((3 * 68 + 0) * 2 + 1) = false) := by
  decide +kernel

theorem meets_test_engine :
    (test_engine_s1.d.teOpen false = true ∧ test_engine_s1.d.bit F.HLT_TE_STATUS_BUSY = false ∧ bitsAt test_engine_cmd1.toNat 0 4 = 2 ∧ bitsAt test_engine_cmd1.toNat 24 4 ≤ 5) ∧
    (test_engine_s1.d.hlt.te = some 5) ∧
    (test_engine_s1.d.teWaits = false) ∧
    (tes.d.teOpen false = true ∧ tes.d.bit F.HLT_TE_STATUS_BUSY = false ∧ bitsAt test_engine_cmd2.toNat 0 4 = 1 ∧ bitsAt test_engine_cmd2.toNat 24 4 ≤ 5) ∧
    (tes.d.teOpen false = true ∧ tes.d.bit F.HLT_TE_STATUS_BUSY = false ∧ bitsAt test_engine_cmd3.toNat 0 4 = 3 ∧ bitsAt test_engine_cmd3.toNat 24 4 ≤ 5) ∧
    (s0.d.teOpen false = false) ∧
    (tes.d.teOpen false = true ∧ tes.d.bit F.HLT_TE_STATUS_BUSY = false ∧ bitsAt test_engine_cmd4.toNat 0 4 = 4 ∧ bitsAt test_engine_cmd4.toNat 24 4 ≤ 5) ∧
    (tes.d.wallState (bitsAt test_engine_cmd4.toNat 8 7 / 12) = 0) ∧
    (tes.d.teOpen false = true ∧ tes.d.bit F.HLT_TE_STATUS_BUSY = false ∧ bitsAt test_engine_cmd5.toNat 0 4 = 5 ∧ bitsAt test_engine_cmd5.toNat 24 4 ≤ 5) := by
  decide +kernel

theorem meets_fabric_ports :
    (fabric_ports_s1.d.portUp 0 = true) ∧
    (frSize frJ ≤ 9216) ∧
    (isDyosh fabric_ports_s1.z fabric_ports_s1.d 0 frJ = false) ∧
    (¬(frJ.etherType = 35063 ∧ frJ.fcsOk = true)) ∧
    (fabric_ports_fs1.dom.toNat = fabric_ports_s1.z.get F.FAB_PTP_CFG_DOMAIN) ∧
    (tfind fabric_ports_s1.d.fab.announce (1 - 0) = some 9) ∧
    (5 < 9) ∧
    (Reaches fabric_ports_s1 f0) ∧
    (fabric_ports_s2.d.portOn 0 = true) ∧
    (fabric_ports_s2.d.portUp 0 = false) ∧
    (fabric_ports_s3.d.portUp 0 = true) ∧
    (frSize fX ≤ 9216) ∧
    (isDyosh fabric_ports_s3.z fabric_ports_s3.d 0 fX = true) ∧
    (3 < frHdr fX 0 4 4) ∧
    (frPcrcOk fX = true) ∧
    (fabric_ports_s4.d.portUp 0 = true) ∧
    (9216 < frSize frBig) ∧
    (fabric_ports_s5.d.portUp 0 = true) ∧
    (frSize fabric_ports_fr1 ≤ 9216) ∧
    (isDyosh fabric_ports_s5.z fabric_ports_s5.d 0 fabric_ports_fr1 = true) ∧
    (3 < frHdr fabric_ports_fr1 0 4 4) ∧
    (frPcrcOk fabric_ports_fr1 = false) := by
  unfold Reaches
  decide +kernel

theorem meets_fabric_time :
    (fabric_time_d1.fab.slewFrac < 1000000) ∧
    (fabric_time_d1.time + 2 * 100000 < 2 ^ 64) ∧
    (fabric_time_s1.d.portUp 0 = true) ∧
    (fabric_time_fs1.dom.toNat = fabric_time_s1.z.get F.FAB_PTP_CFG_DOMAIN) ∧
    (fabric_time_s1.d.procOn 3 = true) ∧
    (fabric_time_s1.d.timeState = timeLocked) ∧
    (fabric_time_s1.d.get F.FAB_TIME_STATUS_SLAVE_PORT = 0) ∧
    (fabric_time_s1.d.bit F.FAB_PTP_CFG_PPS_EN = false) ∧
    (fabric_time_s1.d.portUp (1 - 0) = true) ∧
    (fabric_time_s1.d.bit (F.FAB_PORT_PTP_SYNC_OK (1 - 0)) = true) ∧
    (fabric_time_s2.d.portUp 0 = true) ∧
    (fabric_time_fs2.dom.toNat = fabric_time_s2.z.get F.FAB_PTP_CFG_DOMAIN) ∧
    (fabric_time_s2.d.procOn 3 = true) ∧
    (fabric_time_s2.d.timeState = timeFree) ∧
    (fabric_time_s3.d.timeState = timeLocked) ∧
    (fabric_time_s3.d.bit F.FAB_PTP_CFG_PPS_EN = true) ∧
    (fabric_time_s3.d.bit F.FAB_TIME_STATUS_PPS_SEEN = true) ∧
    (fabric_time_s4.d.timeState = timeHoldover) ∧
    (fabric_time_s4.d.bit F.FAB_PTP_CFG_PPS_EN = true) ∧
    (fabric_time_s5.d.portUp 0 = true) ∧
    (fabric_time_fs3.dom.toNat = fabric_time_s5.z.get F.FAB_PTP_CFG_DOMAIN) ∧
    (fabric_time_s5.d.procOn 3 = true) ∧
    (fabric_time_s5.d.timeState = timeLocking) ∧
    (fabric_time_s5.d.get F.FAB_TIME_STATUS_SLAVE_PORT = 0) ∧
    (fabric_time_s5.d.fab.stepped = false) ∧
    (fabric_time_s6.d.timeState = timeHoldover) ∧
    (max 1 (fabric_time_s6.d.get F.FAB_TIME_LIMIT_LIMIT_NS) < (fabric_time_s6.d.elapse 100000).get F.FAB_TIME_STATUS_TIME_ERR_NS) ∧
    (fabric_time_s7.d.timeState = timeHoldoverPps) := by
  decide +kernel

theorem meets_course_boundary :
    (course_boundary_s1.d.joined = false) ∧
    (course_boundary_s1.d.crs.join = none) ∧
    (course_boundary_s1.d.crs.active = none) ∧
    (course_boundary_s1.d.crs.suspendDue = none) ∧
    (course_boundary_s1.d.get F.CRS_IDLE_LEN_IDLE_LEN = course_boundary_s1.d.get F.CRS_LEN_LEN) ∧
    (0 < course_boundary_s1.d.get F.CRS_LEN_LEN) ∧
    (course_boundary_s1.d.hlt.slices = []) ∧
    (course_boundary_s1.d.hlt.coreMoves = []) ∧
    (course_boundary_s1.d.pool.borrows = []) ∧
    (course_boundary_s1.d.pool.faults = []) ∧
    (course_boundary_s1.d.get F.CRS_ANCHOR_COURSE ≤ course_boundary_s1.d.course) ∧
    (course_boundary_s1.d.course + 1 < 2 ^ 64) ∧
    (course_boundary_s1.d.get F.CRS_ANCHOR_TIME + (course_boundary_s1.d.course + 1 - course_boundary_s1.d.get F.CRS_ANCHOR_COURSE) * (256 * course_boundary_s1.d.get F.CRS_LEN_LEN) < 2 ^ 64) ∧
    (course_boundary_s1.d.time ≤ course_boundary_s1.d.boundaryOf (course_boundary_s1.d.course + 1)) ∧
    (course_boundary_s1.d.host.flights = [] ∨ course_boundary_s1.d.host.flights = [(0, fW)] ∧ fW.armed = some (course_boundary_s1.d.course + 1) ∧ fW.ready = false ∧ descOp fW.desc = 9) ∧
    (course_boundary_s1.d.host.flights = [(0, fW)]) := by
  decide +kernel

set_option maxRecDepth 100000 in
theorem meets_slots_are_sent_1 :
    (slots_are_sent_s1.d.findSend 3 0 = some slots_are_sent_r1) ∧
    (3 < 2 ^ 12) ∧
    (0 < 2 ^ 64) ∧
    (slots_are_sent_r1.phase = SlotPhase.resent) ∧
    (slots_are_sent_s1.d.portUp 0 = true) ∧
    (frSize fAr ≤ 9216) ∧
    (isDyosh slots_are_sent_s1.z slots_are_sent_s1.d 0 fAr = true) ∧
    (frHdr fAr 0 4 4 = 1) ∧
    (frPcrcOk fAr = true) ∧
    (frHeaderOk fAr = true) ∧
    (slots_are_sent_s1.d.frMine fAr = true) ∧
    (frHdr fAr 16 0 12 = 3) ∧
    (frHdr fAr 8 0 64 = 0) ∧
    (sePeer slots_are_sent_r1.entry = frHdr fAr 4 0 10) ∧
    (fAr.data.length = 48) ∧
    (frPay fAr 1 0 8 = 0) ∧
    (frPay fAr 4 0 96 = 0) ∧
    (frHdr fAr 1 0 1 = 1) ∧
    (frPay fAr 0 0 8 = 0) ∧
    ((slots_are_sent_s1.d.elapse 9).time ≤ slots_are_sent_r1.deadline) := by
  decide +kernel

set_option maxRecDepth 100000 in
theorem meets_slots_are_sent_2 :
    (slots_are_sent_s2.d.findSend 3 0 = some slots_are_sent_r2) ∧
    (3 < 2 ^ 12) ∧
    (0 < 2 ^ 64) ∧
    (slots_are_sent_r2.phase = SlotPhase.sent) ∧
    (slots_are_sent_s2.d.portUp 0 = true) ∧
    (frSize slots_are_sent_fr1 ≤ 9216) ∧
    (isDyosh slots_are_sent_s2.z slots_are_sent_s2.d 0 slots_are_sent_fr1 = true) ∧
    (frHdr slots_are_sent_fr1 0 4 4 = 1) ∧
    (frPcrcOk slots_are_sent_fr1 = true) ∧
    (frHeaderOk slots_are_sent_fr1 = true) ∧
    (slots_are_sent_s2.d.frMine slots_are_sent_fr1 = true) ∧
    (frHdr slots_are_sent_fr1 16 0 12 = 3) ∧
    (frHdr slots_are_sent_fr1 8 0 64 = 0) ∧
    (sePeer slots_are_sent_r2.entry = frHdr slots_are_sent_fr1 4 0 10) ∧
    (slots_are_sent_fr1.data.length = 48) ∧
    (frPay slots_are_sent_fr1 1 0 8 = 0) ∧
    (frPay slots_are_sent_fr1 4 0 96 = 0) ∧
    (frHdr slots_are_sent_fr1 1 0 1 = 0) ∧
    (frPay slots_are_sent_fr1 0 0 8 = 0) ∧
    ((slots_are_sent_s2.d.elapse 9).time ≤ slots_are_sent_r2.deadline) := by
  decide +kernel

set_option maxRecDepth 100000 in
theorem meets_slots_are_sent_3 :
    (slots_are_sent_s3.d.findSend 3 0 = some srBig) ∧
    (3 < 2 ^ 12) ∧
    (0 < 2 ^ 64) ∧
    (slots_are_sent_s3.d.crs.sends = [srBig]) ∧
    (srBig.phase = SlotPhase.failed) ∧
    (srBig.course + 1 = slots_are_sent_s3.d.course) ∧
    (sePort srBig.entry = 0) ∧
    (slots_are_sent_s3.d.joined = true) ∧
    (slots_are_sent_s3.d.suspended = false) ∧
    (slots_are_sent_s3.d.jobFailed = false) ∧
    (slots_are_sent_s3.d.portUp 0 = true) ∧
    (¬slotNs (seLength srBig.entry) ≤ plRepairNs slots_are_sent_s3.d.plan 0) ∧
    (slots_are_sent_s4.d.findSend 3 0 = some slots_are_sent_r3) ∧
    (3 < 2 ^ 12) ∧
    (0 < 2 ^ 64) ∧
    (0 = slots_are_sent_s4.d.course) ∧
    (slots_are_sent_r3.phase = SlotPhase.due) ∧
    (slots_are_sent_s4.d.jobFailed = true) ∧
    (slots_are_sent_s5.d.findSend 3 0 = some slots_are_sent_r4) ∧
    (3 < 2 ^ 12) ∧
    (0 < 2 ^ 64) ∧
    (0 = slots_are_sent_s5.d.course) ∧
    (slots_are_sent_r4.phase = SlotPhase.due) ∧
    (slots_are_sent_s5.d.jobFailed = false) ∧
    (Dev.slotReady slots_are_sent_s5.z (slots_are_sent_s5.d.reach (slots_are_sent_s5.d.courseAt (seOffset slots_are_sent_r4.entry))) slots_are_sent_r4 = true) := by
  decide +kernel

set_option maxRecDepth 100000 in
theorem meets_slots_are_sent_4 :
    (slots_are_sent_s6.d.findSend 3 0 = some slots_are_sent_r5) ∧
    (3 < 2 ^ 12) ∧
    (0 < 2 ^ 64) ∧
    (0 = slots_are_sent_s6.d.course) ∧
    (slots_are_sent_r5.phase = SlotPhase.due) ∧
    (slots_are_sent_s6.d.jobFailed = false) ∧
    (Dev.slotReady slots_are_sent_s6.z (slots_are_sent_s6.d.reach (slots_are_sent_s6.d.courseAt (seOffset slots_are_sent_r5.entry))) slots_are_sent_r5 = false) ∧
    (slots_are_sent_s7.d.findSend 3 0 = some slots_are_sent_r6) ∧
    (3 < 2 ^ 12) ∧
    (0 < 2 ^ 64) ∧
    (slots_are_sent_s7.d.portUp 0 = true) ∧
    (frSize slots_are_sent_fr2 ≤ 9216) ∧
    (isDyosh slots_are_sent_s7.z slots_are_sent_s7.d 0 slots_are_sent_fr2 = true) ∧
    (frHdr slots_are_sent_fr2 0 4 4 = 1) ∧
    (frPcrcOk slots_are_sent_fr2 = true) ∧
    (frHeaderOk slots_are_sent_fr2 = true) ∧
    (slots_are_sent_s7.d.frMine slots_are_sent_fr2 = true) ∧
    (frHdr slots_are_sent_fr2 16 0 12 = 3) ∧
    (frHdr slots_are_sent_fr2 8 0 64 = 0) ∧
    (sePeer slots_are_sent_r6.entry = frHdr slots_are_sent_fr2 4 0 10) ∧
    (slots_are_sent_fr2.data.length = 48) ∧
    (frPay slots_are_sent_fr2 1 0 8 = 0) ∧
    (frPay slots_are_sent_fr2 4 0 96 = 0) ∧
    (slots_are_sent_r6.phase = SlotPhase.sent) ∧
    (frHdr slots_are_sent_fr2 1 0 1 = 0) ∧
    (1 ≤ frPay slots_are_sent_fr2 0 0 8) ∧
    (frPay slots_are_sent_fr2 0 0 8 ≤ 3) := by
  decide +kernel

set_option maxRecDepth 100000 in
theorem meets_slots_are_sent_5 :
    (slots_are_sent_s8.d.findSend 3 0 = some slots_are_sent_r7) ∧
    (3 < 2 ^ 12) ∧
    (0 < 2 ^ 64) ∧
    (slots_are_sent_s8.d.crs.sends = [slots_are_sent_r7]) ∧
    (slots_are_sent_r7.phase = SlotPhase.failed) ∧
    (slots_are_sent_r7.course + 1 = slots_are_sent_s8.d.course) ∧
    (sePort slots_are_sent_r7.entry = 0) ∧
    (slots_are_sent_s8.d.joined = true) ∧
    (slots_are_sent_s8.d.suspended = false) ∧
    (slots_are_sent_s8.d.jobFailed = false) ∧
    (slots_are_sent_s8.d.portUp 0 = true) ∧
    (slotNs (seLength slots_are_sent_r7.entry) ≤ plRepairNs slots_are_sent_s8.d.plan 0) ∧
    (Dev.slotReady slots_are_sent_s8.z (slots_are_sent_s8.d.reach (slots_are_sent_s8.d.courseAt (plRepairOff slots_are_sent_s8.d.plan 0))) slots_are_sent_r7 = true) := by
  decide +kernel

theorem meets_slots_are_received :
    (slots_are_received_s1.d.joined = true) ∧
    (List.find? (fun (r : RecvRun) => decide (r.ix = 9) && decide (r.course + 1 = slots_are_received_s1.d.course) && !r.done && !r.lasting) slots_are_received_s1.d.crs.recvs = some slots_are_received_x1) ∧
    (slots_are_received_s2.d.portUp 0 = true) ∧
    (frSize slots_are_received_fr1 ≤ 9216) ∧
    (isDyosh slots_are_received_s2.z slots_are_received_s2.d 0 slots_are_received_fr1 = true) ∧
    (frHdr slots_are_received_fr1 0 4 4 = 0) ∧
    ((((slots_are_received_s2.d.elapse 9).countFec 0 slots_are_received_fr1).countRx 0 [frSize slots_are_received_fr1]).findRecv slots_are_received_fr1 = some slots_are_received_r1) ∧
    (slots_are_received_r1.done = false) ∧
    (frHdr slots_are_received_fr1 1 0 1 = 0) ∧
    (frPcrcOk slots_are_received_fr1 = true) ∧
    (frHeaderOk slots_are_received_fr1 = true) ∧
    (frHdr slots_are_received_fr1 1 1 1 = 1) ∧
    (frHdr slots_are_received_fr1 18 0 10 = 0) ∧
    (slots_are_received_r1.got = []) ∧
    (slots_are_received_r1.bytes = 0) ∧
    (slots_are_received_r1.last = none) ∧
    (slots_are_received_r1.badSeg = false) ∧
    ((List.drop 32 slots_are_received_fr1.data).length = seLength slots_are_received_r1.entry) ∧
    (rangeStatus slots_are_received_s2.z slots_are_received_s2.d (some (enPart (slots_are_received_s2.d.entry slots_are_received_s2.d.crs.joinCtx))) (seAddr slots_are_received_r1.entry) (seLength slots_are_received_r1.entry) = none) ∧
    (slots_are_received_s2.d.crs.ops = []) ∧
    (slots_are_received_s3.d.portUp 0 = true) ∧
    (frSize slots_are_received_fr2 ≤ 9216) ∧
    (isDyosh slots_are_received_s3.z slots_are_received_s3.d 0 slots_are_received_fr2 = true) ∧
    (frHdr slots_are_received_fr2 0 4 4 = 0) ∧
    ((((slots_are_received_s3.d.elapse 9).countFec 0 slots_are_received_fr2).countRx 0 [frSize slots_are_received_fr2]).findRecv slots_are_received_fr2 = some slots_are_received_r2) ∧
    (slots_are_received_r2.done = false) ∧
    (frHdr slots_are_received_fr2 1 0 1 = 0) ∧
    (frPcrcOk slots_are_received_fr2 = false) := by
  decide +kernel

set_option maxRecDepth 100000 in
theorem meets_status_and_keystone_words_1 :
    (status_and_keystone_words_s1.d.joined = true) ∧
    (status_and_keystone_words_s1.d.crs.active = some planJ) ∧
    (status_and_keystone_words_s1.d.crs.statusSent ≠ some status_and_keystone_words_s1.d.course) ∧
    (status_and_keystone_words_s1.d.hlt.alarmJob = false) ∧
    (status_and_keystone_words_s1.d.portUp 0 = true) ∧
    (frSize fS_F3 ≤ 9216) ∧
    (isDyosh status_and_keystone_words_s1.z status_and_keystone_words_s1.d 0 fS_F3 = true) ∧
    (frPcrcOk fS_F3 = true) ∧
    (frHeaderOk fS_F3 = true) ∧
    (status_and_keystone_words_s1.d.frMine fS_F3 = true) ∧
    (frHdr fS_F3 0 4 4 = 2) ∧
    (frHdr fS_F3 4 0 10 < plModules planJ) ∧
    (frHdr fS_F3 4 0 10 ≠ status_and_keystone_words_s1.d.ownModule) ∧
    (statusOk fS_F3 = true) ∧
    (status_and_keystone_words_s1.d.role ≠ roleMember) ∧
    ((status_and_keystone_words_s1.d.report (frHdr fS_F3 4 0 10)).course ≠ status_and_keystone_words_s1.d.course) ∧
    (status_and_keystone_words_s1.d.role = roleKeystone ∨ status_and_keystone_words_s1.d.role = roleActing) ∧
    (status_and_keystone_words_s1.d.crs.wordSent ≠ some status_and_keystone_words_s1.d.course) ∧
    (status_and_keystone_words_s1.d.suspended = false) ∧
    (status_and_keystone_words_s2.d.joined = true) ∧
    (status_and_keystone_words_s2.d.crs.active = some planJ) ∧
    (status_and_keystone_words_s2.d.crs.statusSent = some status_and_keystone_words_s2.d.course) ∧
    (status_and_keystone_words_s2.d.role ≠ roleMember) ∧
    (1 < plModules planJ) ∧
    ((status_and_keystone_words_s2.d.report 1).left status_and_keystone_words_s2.d.course = false) ∧
    (plMiss planJ ≤ (status_and_keystone_words_s2.d.report 1).missed) ∧
    (status_and_keystone_words_s2.d.crs.lostModules.contains 1 = false) ∧
    (status_and_keystone_words_s2.d.suspended = false) ∧
    (status_and_keystone_words_s2.d.crs.suspends = none) ∧
    (status_and_keystone_words_s2.d.crs.fault = none) := by
  decide +kernel

set_option maxRecDepth 100000 in
theorem meets_status_and_keystone_words_2 :
    (status_and_keystone_words_s3.d.joined = true) ∧
    (status_and_keystone_words_s3.d.crs.active = some planM) ∧
    (status_and_keystone_words_s3.d.portUp 0 = true) ∧
    (frSize fK ≤ 9216) ∧
    (isDyosh status_and_keystone_words_s3.z status_and_keystone_words_s3.d 0 fK = true) ∧
    (frPcrcOk fK = true) ∧
    (frHeaderOk fK = true) ∧
    (status_and_keystone_words_s3.d.frMine fK = true) ∧
    (frHdr fK 0 4 4 = 3) ∧
    (wordOk fK = true) ∧
    (status_and_keystone_words_s3.d.role = roleMember) ∧
    (status_and_keystone_words_s3.d.crs.acting = none) ∧
    (fld (leNat (List.drop 32 fK.data)) 18 1 1 = 0) ∧
    (frHdr fK 4 0 10 = plKeystone planM) ∧
    (status_and_keystone_words_s3.d.crs.wordIn = false) ∧
    (fld (leNat (List.drop 32 fK.data)) 18 2 3 = 0) ∧
    (status_and_keystone_words_s4.d.joined = true) ∧
    (status_and_keystone_words_s4.d.crs.active = some planM) ∧
    (status_and_keystone_words_s4.d.role = roleSuccessor) ∧
    (plTakeover planM ≤ status_and_keystone_words_s4.d.crs.missedWords) ∧
    (status_and_keystone_words_s4.d.jobFailed = false) ∧
    (status_and_keystone_words_s4.d.suspended = false) := by
  decide +kernel

set_option maxRecDepth 100000 in
theorem meets_status_and_keystone_words_3 :
    (status_and_keystone_words_s5.d.joined = true) ∧
    (status_and_keystone_words_s5.d.crs.active = some planM2) ∧
    (status_and_keystone_words_s5.d.portUp 0 = true) ∧
    (frSize fKt ≤ 9216) ∧
    (isDyosh status_and_keystone_words_s5.z status_and_keystone_words_s5.d 0 fKt = true) ∧
    (frPcrcOk fKt = true) ∧
    (frHeaderOk fKt = true) ∧
    (status_and_keystone_words_s5.d.frMine fKt = true) ∧
    (frHdr fKt 0 4 4 = 3) ∧
    (wordOk fKt = true) ∧
    (status_and_keystone_words_s5.d.role = roleMember) ∧
    (status_and_keystone_words_s5.d.crs.acting = none) ∧
    (fld (leNat (List.drop 32 fKt.data)) 18 1 1 = 1) ∧
    (frHdr fKt 4 0 10 = plSuccessor planM2) ∧
    (status_and_keystone_words_s5.d.crs.wordIn = false) := by
  decide +kernel

theorem meets_power_management :
    (power_management_s1.d.barOpen (Requester.fn 0) = true) ∧
    (power_management_s1.d.capOk (4294965328 % 2 ^ 11) = false) ∧
    (Reaches power_management_s1 f0) ∧
    (power_management_s1.d.powered = true) ∧
    (power_management_s1.d.bit (F.PWR_DIE_OP_TRANSITION 1) = true) ∧
    (power_management_s1.d.governed = false) ∧
    (tget 0 power_management_s1.d.pwr.target 1 < 8) ∧
    (power_management_s1.d.pwr.stretched.contains 1 = true) ∧
    (32 ≤ 40) ∧
    (power_management_s2.d.barOpen (Requester.fn 0) = true) ∧
    (power_management_s2.d.capOk (500 % 2 ^ 11) = true) ∧
    (power_management_s2.d.governed = true) ∧
    (power_management_s2.d.powered = true) ∧
    (1000 * power_management_s2.d.cap < 5000000) ∧
    (power_management_s2.d.pwr.stretched.contains 1 = false) := by
  unfold Reaches
  decide +kernel

theorem meets_thermal_control :
    (thermal_control_s1.d.powered = true) ∧
    (90 < thermal_control_s1.d.get F.THM_LIMITS_TRIP_C) ∧
    (thermal_control_s1.d.governed = true) ∧
    (thermal_control_s1.d.coreThrot ≤ maxOf (thermal_control_s1.d.coreReadings 0)) ∧
    (0 < thermal_control_s1.d.get (F.PWR_DIE_OP_THERM_OP 0)) ∧
    (thermal_control_s2.d.powered = true) ∧
    (thermal_control_s2.d.get F.THM_LIMITS_TRIP_C ≤ 120) ∧
    (thermal_control_s2.d.pwr.hot.contains (256 + 3) = true) := by
  decide +kernel

theorem meets_boot_stages_1 :
    (boot_stages_s1.d.pfWrites (Requester.fn 0) = true) ∧
    (boot_stages_s1.d.mboxTakes stageOPEN = false) ∧
    (boot_stages_s1.d.stage = stageCLEARING) ∧
    (boot_stages_s1.d.macrosUp = true) ∧
    (∀ (p : Fin 4), boot_stages_s1.d.partState ↑p = codeON) ∧
    (∀ (x : Fin 256), boot_stages_s1.d.coreState ↑x = codeON ∨ boot_stages_s1.d.coreState ↑x = codeOFF) ∧
    (boot_stages_s1.d.awake = true) ∧
    (boot_stages_s1.d.aux.configOpen = true) ∧
    (30 ≤ ↑(Fin.ofNat 64 36)) ∧
    (↑(Fin.ofNat 64 36) ≤ if Fin.ofNat 64 63 = 0 then 39 else 36) ∧
    (boot_stages_s2.d.aux.perst = true) ∧
    (boot_stages_s2.d.powered = true) ∧
    (boot_stages_s2.d.lifeCycle ≠ 0) ∧
    (boot_stages_s2.d.lifeCycle ≠ 5) ∧
    (boot_stages_s2.d.flash.names Region3.loader = true) ∧
    (boot_stages_s2.d.verifyImage 1 boot_stages_s2.d.flash.loader = 0) ∧
    (boot_stages_s3.d.pfWrites (Requester.fn 0) = true) ∧
    (boot_stages_s3.d.mboxTakes stageRECOVERY = true) ∧
    (boot_stages_s4.d.stage = stageFETCHING) ∧
    (boot_stages_s4.d.fw.fetch = some (5, imgRuntime.length)) ∧
    (boot_stages_s5.d.stage = stageVERIFYING) ∧
    (boot_stages_s6.d.pfWrites (Requester.fn 0) = true) ∧
    (boot_stages_s6.d.mboxTakes stageOPEN = true) ∧
    (boot_stages_s7.d.pfWrites (Requester.fn 0) = true) ∧
    (boot_stages_s7.d.mboxTakes stageVERIFIED = true) ∧
    (∀ (k : Fin 6), boot_stages_s7.d.stateOf (SwUnit.proc k) = codeOFF) ∧
    (boot_stages_s8.d.stage = stageSTARTING_FW) ∧
    (∀ (k : Fin 6), boot_stages_s8.d.procOn ↑k = true) ∧
    (boot_stages_s9.d.stage = stageTRAINING) ∧
    (∀ (i : Fin 24), boot_stages_s9.d.get (F.MEM_STACK_STATE_STATE ↑i) = codeON) := by
  decide +kernel

theorem meets_boot_stages_2 :
    (boot_stages_s10.d.stage = stageCLEARING) ∧
    (boot_stages_s10.d.macrosUp = false) ∧
    (5 < 256) ∧
    (77 < 524288) ∧
    (boot_stages_s11.d.awake = true) ∧
    ((5 : Fin 8) ≠ 0) ∧
    ([1, 2, 4, 8, 16].contains 16 = true) ∧
    (boot_stages_s12.d.awake = true) ∧
    (boot_stages_s12.d.aux.configOpen = false) := by
  decide +kernel

theorem meets_service_commands_1 :
    (service_commands_s1.d.pfWrites (Requester.fn 0) = true) ∧
    (service_commands_s1.d.mboxTakes stageREADY = true) ∧
    (service_commands_s1.d.feature 3 = true) ∧
    (service_commands_s1.d.procOn 0 = true) ∧
    (service_commands_s1.d.fw.fetch = none) ∧
    (service_commands_s1.d.get F.FW_MBOX_IMAGE_BYTES_BYTES = service_commands_b1.length) ∧
    (service_commands_s1.d.serviceCheck service_commands_b1 ≠ 0) ∧
    (service_commands_s1.d.serviceCheck service_commands_b1 < 16) ∧
    (imgNat service_commands_b1 4 1 = 1 ∨ serviceFormatOk service_commands_b1 = false) ∧
    (imgNat service_commands_b1 4 1 = 5 ∨ serviceFormatOk service_commands_b1 = false) ∧
    (service_commands_s2.d.pfWrites (Requester.fn 0) = true) ∧
    (service_commands_s2.d.mboxTakes stageREADY = true) ∧
    (service_commands_s2.d.feature 3 = true) ∧
    (service_commands_s2.d.procOn 0 = true) ∧
    (service_commands_s2.d.fw.fetch = none) ∧
    (service_commands_s2.d.get F.FW_MBOX_IMAGE_BYTES_BYTES = svLc.length) ∧
    (service_commands_s2.d.serviceCheck svLc = 0) ∧
    (imgNat svLc 4 1 = 1) ∧
    (service_commands_s3.d.pfWrites (Requester.fn 0) = true) ∧
    (service_commands_s3.d.mboxTakes stageREADY = true) ∧
    (service_commands_s3.d.feature 3 = true) ∧
    (service_commands_s3.d.procOn 0 = true) ∧
    (service_commands_s3.d.fw.fetch = none) ∧
    (service_commands_s3.d.get F.FW_MBOX_IMAGE_BYTES_BYTES = svSvn.length) ∧
    (service_commands_s3.d.serviceCheck svSvn = 0) ∧
    (imgNat svSvn 4 1 = 3) := by
  decide +kernel

theorem meets_service_commands_2 :
    (service_commands_s4.d.pfWrites (Requester.fn 0) = true) ∧
    (service_commands_s4.d.mboxTakes stageREADY = true) ∧
    (service_commands_s4.d.feature 3 = true) ∧
    (service_commands_s4.d.procOn 0 = true) ∧
    (service_commands_s4.d.fw.fetch = none) ∧
    (service_commands_s4.d.get F.FW_MBOX_IMAGE_BYTES_BYTES = svBurn.length) ∧
    (service_commands_s4.d.serviceCheck svBurn = 0) ∧
    (imgNat svBurn 4 1 = 4) ∧
    (service_commands_s4.d.candidates ≠ []) ∧
    (service_commands_s5.d.pfWrites (Requester.fn 0) = true) ∧
    (service_commands_s5.d.mboxTakes stageREADY = true) ∧
    (service_commands_s5.d.feature 3 = true) ∧
    (service_commands_s5.d.procOn 0 = true) ∧
    (service_commands_s5.d.fw.fetch = none) ∧
    (service_commands_s5.d.get F.FW_MBOX_IMAGE_BYTES_BYTES = svDebug.length) ∧
    (service_commands_s5.d.serviceCheck svDebug = 0) ∧
    (imgNat svDebug 4 1 = 6) ∧
    (service_commands_s6.d.pfWrites (Requester.fn 0) = true) ∧
    (service_commands_s6.d.mboxTakes stageREADY = true) ∧
    (service_commands_s6.d.feature 3 = true) ∧
    (service_commands_s6.d.procOn 0 = true) ∧
    (service_commands_s6.d.fw.fetch = none) ∧
    (service_commands_s6.d.get F.FW_MBOX_IMAGE_BYTES_BYTES = svFlash.length) ∧
    (service_commands_s6.d.serviceCheck svFlash = 0) ∧
    (imgNat svFlash 4 1 = 5) := by
  decide +kernel

theorem meets_service_commands_3 :
    (service_commands_s7.d.pfWrites (Requester.fn 0) = true) ∧
    (service_commands_s7.d.mboxTakes stageREADY = true) ∧
    (service_commands_s7.d.feature 3 = true) ∧
    (service_commands_s7.d.procOn 0 = true) ∧
    (service_commands_s7.d.fw.fetch = none) ∧
    (service_commands_s7.d.get F.FW_MBOX_IMAGE_BYTES_BYTES = svRevoke.length) ∧
    (service_commands_s7.d.serviceCheck svRevoke = 0) ∧
    (imgNat svRevoke 4 1 = 2) := by
  decide +kernel

theorem meets_fuses_tamper_and_firmware_1 :
    (3 < 6) ∧
    (bitsAt 9 3 1 = 1) ∧
    (bitsAt (fz2.d.get F.LCS_TAMPER_LIVE) 3 1 = 0) ∧
    (vaultOff ≤ fuses_tamper_and_firmware_a1) ∧
    (fuses_tamper_and_firmware_a1 < vaultOff + 1048576) ∧
    (fz2.d.lifeCycle = 3) ∧
    (fz2.d.procOn 3 = true) ∧
    (0 < (fz2.d.elapse 5).wdtLeft 3) ∧
    (fz2.d.pfWrites (Requester.fn 0) = true) ∧
    (fz2.d.feature 2 = true) ∧
    ((3 : Fin 6) ≠ 0) ∧
    (fz2.d.bit (F.FW_PROC_STATUS_LASTING 3) = false) ∧
    (Reaches fz2 f0) ∧
    (fz2.d.feature 0 = true) ∧
    (1 % 2 = 1) ∧
    (fz2.d.logWritten 2 = true) ∧
    (fz2.d.aux.perst = false) ∧
    (fz2.d.powered = true) ∧
    (fz2.d.fw.burns = []) ∧
    (fuses_tamper_and_firmware_a1 < 2 ^ 48) := by
  unfold Reaches
  decide +kernel

theorem meets_fuses_tamper_and_firmware_2 :
    (fuses_tamper_and_firmware_s1.d.proc0Runs = true) ∧
    (fuses_tamper_and_firmware_s1.d.fw.burns = (Burn.lifeCycle 3, true) :: fuses_tamper_and_firmware_rest1) ∧
    (1 ≤ 3) ∧
    (3 ≤ 5) ∧
    (1 % 2 = 1) ∧
    (fuses_tamper_and_firmware_s1.d.lifeCycle = 0) ∧
    (fuses_tamper_and_firmware_s1.d.lifeCycle ≠ 3) ∧
    (fuses_tamper_and_firmware_s1.d.procOn 3 = true) ∧
    ((fuses_tamper_and_firmware_s1.d.elapse 100000005).wdtLeft 3 = 0) ∧
    ((List.filter (fun (t : Nat) => decide (fuses_tamper_and_firmware_s1.d.now + 100000005 < t + 60000000000)) (tget [] fuses_tamper_and_firmware_s1.d.fw.expiries 3)).length < 3) ∧
    (fuses_tamper_and_firmware_s1.d.bit (F.FW_PROC_STATUS_LASTING 3) = false) ∧
    (fuses_tamper_and_firmware_s2.d.procOn 3 = true) ∧
    ((fuses_tamper_and_firmware_s2.d.elapse 100000005).wdtLeft 3 = 0) ∧
    (3 ≤ (List.filter (fun (t : Nat) => decide (fuses_tamper_and_firmware_s2.d.now + 100000005 < t + 60000000000)) (tget [] fuses_tamper_and_firmware_s2.d.fw.expiries 3)).length) := by
  decide +kernel

theorem meets_spdm_requests :
    (spdm_requests_s1.d.stage = stageREADY) ∧
    (spdm_requests_s1.d.procOn 0 = true) ∧
    (1 ≤ 2) ∧
    (2 ≤ 5) ∧
    (spdm_requests_s1.d.identified = true) ∧
    (vaultDie spdm_requests_s1.z spdm_requests_s1.d 1 = some 1) ∧
    ((spdm_requests_s1.d.fw.sessions.any fun (x : Nat × Nat) => decide (x.fst = 1)) = true) ∧
    ((vaultDie spdm_requests_s1.z spdm_requests_s1.d 1).isSome = true) ∧
    (0 = 0) := by
  decide +kernel

theorem meets_power_sequence :
    (power_sequence_s1.d.aux.rails = Rails.rising) ∧
    (power_sequence_s1.d.aux.pwrEn = true) ∧
    (power_sequence_s1.d.aux.rails ≠ Rails.off) ∧
    (power_sequence_s1.d.aux.auxOn = true) ∧
    (power_sequence_s2.d.aux.auxOn = true) ∧
    (power_sequence_s2.d.aux.pwrEn = false) ∧
    (power_sequence_s2.d.aux.vinOk = true) ∧
    (power_sequence_s2.d.aux.fault = false) ∧
    (power_sequence_s2.d.aux.thermTrip = false) ∧
    (power_sequence_s2.d.aux.rails = Rails.off) ∧
    (power_sequence_s3.d.aux.auxOn = false) ∧
    (power_sequence_s4.d.aux.auxOn = true) ∧
    (power_sequence_s4.d.aux.pwrEn = true) ∧
    (power_sequence_s4.d.aux.fault = false) ∧
    (power_sequence_s4.d.aux.thermTrip = false) ∧
    (power_sequence_s4.d.aux.rails = Rails.off) := by
  decide +kernel

theorem meets_smbus_endpoint :
    (smbus_endpoint_s1.d.aux.auxOn = true) ∧
    (smbus_endpoint_s1.d.aux.served = false ∨ smbus_endpoint_s1.d.aux.served = true ∧ smbus_endpoint_s1.d.procOn 5 = true) ∧
    ((9 : BitVec 8) ≠ 0) ∧
    ((9 : BitVec 8) ≠ 255) ∧
    (smbus_endpoint_s1.d.aux.eid = 0) ∧
    (smbus_endpoint_s1.d.aux.served = true ∧ smbus_endpoint_s1.d.procOn 5 = true) ∧
    (stateSensors.contains 32 = true) ∧
    (smbus_endpoint_s1.d.feature 4 = true) ∧
    (smbus_endpoint_s1.d.capOk 400 = true) ∧
    (400 < 2 ^ 11) ∧
    (smbus_endpoint_s2.d.aux.auxOn = true) ∧
    ((smbus_endpoint_s2.d.aux.served = true ∧ smbus_endpoint_s2.d.procOn 5 = true) ∧ numericSensors.contains 1 = true ∨ smbus_endpoint_s2.d.aux.served = false ∧ standbyNumeric.contains 1 = true) ∧
    (smbus_endpoint_s2.d.aux.served = false) ∧
    (smbus_endpoint_s3.d.aux.auxOn = true) ∧
    (smbus_endpoint_s3.d.aux.served = true ∧ smbus_endpoint_s3.d.procOn 5 = true) ∧
    (smbus_endpoint_s3.d.aux.events = smbus_endpoint_e1 :: smbus_endpoint_rest1) ∧
    (smbus_endpoint_s3.d.aux.receiver = some 9) := by
  decide +kernel

theorem meets_commands_run_from_the_queue :
    (sQc.pending = commands_run_from_the_queue_c1 :: commands_run_from_the_queue_rest1) := by
  decide +kernel

theorem meets_memory_stays_canonical :
    (MemoryOk sQc) ∧
    (step sQc = Host.Outcome.next tQc) := by
  refine ⟨?_, ?_⟩ <;> first
    | rfl
    | decide +kernel
    | (unfold Reaches; decide +kernel)
    | (unfold MemoryOk; decide +kernel)

theorem meets_setup_lock_is_kept :
    (sLq.z.setup.locked = true) ∧
    (Reaches sLq f0) ∧
    (step sLq = Host.Outcome.next tLq) ∧
    (sLq.z.setup.layout.isSome = true) := by
  refine ⟨?_, ?_, ?_, ?_⟩ <;> first
    | rfl
    | decide +kernel
    | (unfold Reaches; decide +kernel)
    | (unfold MemoryOk; decide +kernel)

theorem meets_burned_fuses_stay_burned :
    (step sQc = Host.Outcome.next tQc) := by
  first
    | rfl
    | decide +kernel
    | (unfold Reaches; decide +kernel)
    | (unfold MemoryOk; decide +kernel)

theorem meets_virtual_function_is_confined :
    ((5 : Fin 64) ≠ 0) ∧
    (16 % 4 = 0) ∧
    (16 % 64 ≠ 0 ∧ 16 % 64 ≠ 32 ∨ 64 * (s0.z.ctxRange 5).snd ≤ 16) ∧
    (16 < 49152 ∨ 50176 ≤ 16) := by
  decide +kernel

theorem meets_context_reset_zeroes_the_counts :
    (sC.d.barOpen f0 = true) ∧
    (reachesCtx sC.z f0 5 = true) ∧
    (sC.d.ctxState 5 = codeOFF) ∧
    (sCd.d.barOpen f0 = true) ∧
    (reachesCtx sCd.z f0 5 = true) ∧
    (sCd.d.ctxState 5 ≠ codeOFF) := by
  decide +kernel

theorem meets_hot_core_is_held :
    (hot_core_is_held_s1.d.powered = true) ∧
    (hot_core_is_held_s1.d.pwr.hot.contains (256 + 3) = false) ∧
    (hot_core_is_held_s1.d.bit (F.THM_CORE_TEMP_HELD 3) = false) ∧
    (hot_core_is_held_s1.d.get F.THM_LIMITS_CORE_HOLD_C ≤ 105) ∧
    (hot_core_is_held_s2.d.powered = true) ∧
    (hot_core_is_held_s2.d.pwr.hot.contains (256 + 3) = false) ∧
    (hot_core_is_held_s2.d.bit (F.THM_CORE_TEMP_HELD 3) = true ∧ hot_core_is_held_s2.d.get F.THM_LIMITS_CORE_HOLD_C < 104 + 5 ∨ hot_core_is_held_s2.d.bit (F.THM_CORE_TEMP_HELD 3) = false ∧ 104 < hot_core_is_held_s2.d.get F.THM_LIMITS_CORE_HOLD_C) ∧
    (hot_core_is_held_s3.d.powered = true) ∧
    (hot_core_is_held_s3.d.pwr.hot.contains (256 + 3) = false) ∧
    (hot_core_is_held_s3.d.bit (F.THM_CORE_TEMP_HELD 3) = true) ∧
    (100 + 5 ≤ hot_core_is_held_s3.d.get F.THM_LIMITS_CORE_HOLD_C) := by
  decide +kernel

theorem meets_starting_clears_tenant_data :
    (enReaches sDirty.z sDirty.d f0 (SwUnit.core (3 : Fin 256)) = true) ∧
    (sDirty.d.stateOf (SwUnit.core (3 : Fin 256)) = codeOFF) ∧
    (7 < 524288) ∧
    (9 < 64) ∧
    (enReaches sDirty.z sDirty.d f0 (SwUnit.cim (3 : Fin 256) (9 : Fin 68)) = true) ∧
    (sDirty.d.stateOf (SwUnit.cim (3 : Fin 256) (9 : Fin 68)) = codeOFF) ∧
    (1 < 2) ∧
    (5 < 512) ∧
    (enReaches sDirty.z sDirty.d f0 (SwUnit.bank (3 : Fin 256) (9 : Fin 68) (1 : Fin 2)) = true) ∧
    (sDirty.d.stateOf (SwUnit.bank (3 : Fin 256) (9 : Fin 68) (1 : Fin 2)) = codeOFF) ∧
    (enReaches sDirty.z sDirty.d f0 (SwUnit.part (0 : Fin 4)) = true) ∧
    (sDirty.d.stateOf (SwUnit.part (0 : Fin 4)) = codeOFF) ∧
    (2 < 4) ∧
    (sDirty.z.partOfDie 2 = 0) ∧
    (7 < vaultOff + 1048576) := by
  decide +kernel

/-- The second clause of `reset_state` and its first: a field that the fuses and the nonce do not set. -/
theorem meets_reset_state : (F.CORE_STATE_STATE 3).key ∉ (Fuses.part.shadow ++ nonceFields 0).map (fun p => p.1.key) := by decide +kernel

/-- The third clause of `commands_run_from_the_queue`, with the rails good and with the rails off. -/
theorem meets_commands_run_from_the_queue_idle : (({} : State).pending = [] ∧ ({} : State).d.aux.rails = .good) ∧
    (({ d := { aux := { rails := .off } } } : State).pending = [] ∧ ({ d := { aux := { rails := .off } } } : State).d.aux.rails ≠ .good) := by decide +kernel

end Sys2Proof.Tests
end

section
/-! The register map and the accesses of BAR0 by a requester that reaches all of it (R5, R8, R10 to R12); the state after reset (R7). -/
namespace Sys2Proof.Machine

open Sys2Proof Sys2Proof.Safety

/-! ### The register map -/

/-- The first row of the map that has a copy at an offset is the register there (R12). -/
theorem regAt_eq_some {off k i j : Nat} {r : RegDecl} (hk : regTable[k]? = some r) (hmiss : ∀ r' ∈ regTable.take k, r'.indices off = none)
    (hhit : r.indices off = some (i, j)) : regAt off = some (r, i, j) := by
  obtain ⟨hlt, hr⟩ := List.getElem?_eq_some_iff.1 hk
  have hsplit : regTable = regTable.take k ++ r :: regTable.drop (k + 1) := by
    rw [← hr, ← List.drop_eq_getElem_cons hlt, List.take_append_drop]
  unfold regAt
  rw [hsplit, List.findSome?_append, List.findSome?_eq_none_iff.2 (by simpa using hmiss)]
  simp [hhit]

theorem regAt_eq_none {off : Nat} (h : ∀ r ∈ regTable, r.indices off = none) : regAt off = none :=
  List.findSome?_eq_none_iff.2 fun r hr => by rw [h r hr]; rfl

theorem regAt_HOST_ID : regAt 0x0 = some (⟨.HOST_ID, 0x0, 0x1, 1, 0x1, 1, false,
    [(.ro, fun _ _ => F.HOST_ID_DEVICE), (.ro, fun _ _ => F.HOST_ID_STEPPING)]⟩, 0, 0) :=
  regAt_eq_some (k := 0) rfl (by decide) rfl

theorem regAt_HOST_FN_BAR4 : regAt 0x400 = some (⟨.HOST_FN_BAR4, 0x400, 0x8, 64, 0x1, 1, true, [(.rw, fun a _ => F.HOST_FN_BAR4_BASE a)]⟩, 0, 0) :=
  regAt_eq_some (k := 6) rfl (by decide) rfl

theorem regAt_LCS_TAMPER : regAt 0x200008 = some (⟨.LCS_TAMPER, 0x200008, 0x1, 1, 0x1, 1, false,
    [(.w1c, fun _ _ => F.LCS_TAMPER_LATCHED), (.ro, fun _ _ => F.LCS_TAMPER_LIVE)]⟩, 0, 0) :=
  regAt_eq_some (k := 48) rfl (by decide) rfl

theorem regAt_MEM_ASM_CFG : regAt 0x6030004 = some (⟨.MEM_ASM_CFG, 0x6030004, 0x1, 1, 0x1, 1, false,
    [(.rw, fun _ _ => F.MEM_ASM_CFG_TIMEOUT_NS)]⟩, 0, 0) :=
  regAt_eq_some (k := 291) rfl (by decide +kernel) rfl

theorem regAt_MEM_SCRUB : regAt 0x6030008 = some (⟨.MEM_SCRUB, 0x6030008, 0x1, 1, 0x1, 1, false,
    [(.rw, fun _ _ => F.MEM_SCRUB_EN), (.rw, fun _ _ => F.MEM_SCRUB_INTERVAL_H)]⟩, 0, 0) :=
  regAt_eq_some (k := 292) rfl (by decide +kernel) rfl

/-- No register has a copy at 0x20, nor at the word below it. -/
theorem regAt_unmapped : regAt 0x20 = none ∧ regAt 0x1C = none :=
  ⟨regAt_eq_none (by decide +kernel), regAt_eq_none (by decide +kernel)⟩

/-- The upper half of HOST_FN_BAR4 is no register of its own. -/
theorem regAt_HOST_FN_BAR4_upper : regAt 0x404 = none := regAt_eq_none (by decide +kernel)

/-- The entry of function `f` in HOST_FN_CFG (R301). -/
theorem regAt_HOST_FN_CFG (f : Fin 64) : regAt (0x200 + 8 * f.val) = some (⟨.HOST_FN_CFG, 0x200, 0x8, 64, 0x1, 1, true,
    [(.rwl, fun a _ => F.HOST_FN_CFG_PARTITION a), (.rwl, fun a _ => F.HOST_FN_CFG_CTX_FIRST a), (.rwl, fun a _ => F.HOST_FN_CFG_CTX_COUNT a)]⟩, f.val, 0) := by
  have hf := f.isLt
  refine regAt_eq_some (k := 5) rfl (fun r' hr' => ?_) ?_
  · simp only [regTable, regTable0, List.cons_append, List.take_succ_cons, List.take_zero, List.mem_cons, List.not_mem_nil, or_false] at hr'
    obtain rfl | rfl | rfl | rfl | rfl := hr' <;> simp [RegDecl.indices] <;> omega
  · simp [RegDecl.indices, hf]

/-! ### What a requester with full access reaches -/

/-- An offset at which a requester with full access finds a register at its own place: outside the MSI-X table (R294) and the CIM_ registers, where an index of a
spare may name another place. -/
def PlainOff (off : Nat) : Prop := (off < 0x8000 ∨ 0x10000 ≤ off) ∧ (off < 0x4000000 ∨ 0x4400000 ≤ off)

theorem cimIndex_of_plainOff {off : Nat} (h : PlainOff off) : cimIndex off = none := by
  obtain ⟨-, h⟩ := h
  exact if_neg (by omega)

theorem homeOff_of_plainOff {off : Nat} (d : Dev) (h : PlainOff off) : d.homeOff off = off := by
  simp [Dev.homeOff, cimIndex_of_plainOff h]

theorem spareIndex_of_plainOff {off : Nat} (h : PlainOff off) : spareIndex off = false := by
  simp [spareIndex, cimIndex_of_plainOff h]

theorem target_of_fullAccess {q : Requester} {off : Nat} (z : Fixed) (hq : fullAccess q = true) (h : PlainOff off) : target z q off = .reg off := by
  cases q with
  | fn f =>
    have hf : f.val = 0 := by simpa [fullAccess] using hq
    have hm : ¬ (0x8000 ≤ off ∧ off < 0x10000) := by obtain ⟨h, -⟩ := h; omega
    simp only [target, hf, hm, if_true, if_false]
  | proc k => rfl
  | testEngine => exact nomatch hq

theorem decodes_of_reaches {s : State} {q : Requester} (h : Reaches s q) (off : Nat) : s.d.decodes q off = true := by
  obtain ⟨-, hb⟩ := h
  cases q with
  | fn f => simp_all [Dev.barOpen, Dev.decodes, stageRECOVERY]
  | proc k => rfl
  | testEngine => rfl

theorem permitted_of_fullAccess {w : RegWrite} (h : fullAccess w.q = true) : w.permitted = true := by
  unfold RegWrite.permitted
  cases hq : w.q with
  | fn f =>
    have hf : f.val = 0 := by simpa [fullAccess, hq] using h
    simp [hf]
  | proc k => rfl
  | testEngine => rw [hq] at h; exact nomatch h

theorem readAnswer_of_reaches {s : State} {q : Requester} (h : Reaches s q) (d : Dev) (hd : d.host.d3 = s.d.host.d3) (v : Nat) :
    d.readAnswer q v = d.emit (.readReply q v) := by
  obtain ⟨-, hb⟩ := h
  cases q with
  | fn f => simp_all [Dev.barOpen, Dev.readAnswer]
  | proc k => rfl
  | testEngine => rfl

/-! ### A 4-byte write, by what its offset names (R11) -/

section
variable {z : Fixed} {d : Dev} {q : Requester} {off v i j : Nat} {r : RegDecl}

theorem write4_narrow (hq : fullAccess q = true) (hd : d.decodes q off = true) (hp : PlainOff off) (hr : regAt off = some (r, i, j)) (hw : r.wide = false) :
    write4 z d q off v = writeReg z d ⟨q, r, i, j, false, v, true, 0, 32⟩ := by
  simp only [write4, hd, target_of_fullAccess z hq hp, homeOff_of_plainOff d hp, spareIndex_of_plainOff hp, hr, hw, Bool.not_true, Bool.false_eq_true, if_false]

/-- The lower half of a 64-bit register is staged. -/
theorem write4_lower (hq : fullAccess q = true) (hd : d.decodes q off = true) (hp : PlainOff off) (hr : regAt off = some (r, i, j)) (hw : r.wide = true) :
    write4 z d q off v = writeReg z (d.setStaged q (some (off, v))) ⟨q, r, i, j, false, v, false, 0, 32⟩ := by
  simp only [write4, hd, target_of_fullAccess z hq hp, homeOff_of_plainOff d hp, spareIndex_of_plainOff hp, hr, hw, Bool.not_true, Bool.false_eq_true, if_false,
    if_true]

/-- The upper half of a 64-bit register whose lower half is staged sets the whole. -/
theorem write4_upper {x : Nat} (hq : fullAccess q = true) (hd : d.decodes q (off + 4) = true) (hp : PlainOff (off + 4)) (hn : regAt (off + 4) = none)
    (hr : regAt off = some (r, i, j)) (hw : r.wide = true) (hs : tfind d.host.wstage (stageNumber q) = some (off, x)) :
    write4 z d q (off + 4) v = writeReg z (d.setStaged q none) ⟨q, r, i, j, false, x + v * 2 ^ 32, true, 32, 64⟩ := by
  have h4 : decide (off + 4 < 4) = false := decide_eq_false (by omega)
  simp only [write4, hd, target_of_fullAccess z hq hp, homeOff_of_plainOff d hp, spareIndex_of_plainOff hp, hn, hr, hw, hs, h4, Nat.add_sub_cancel,
    Bool.not_true, Bool.false_or, Bool.false_eq_true, if_false, if_true]

theorem write4_unmapped (hq : fullAccess q = true) (hp : PlainOff off) (hn : regAt off = none) (hn' : regAt (off - 4) = none) : write4 z d q off v = (z, d) := by
  simp only [write4, target_of_fullAccess z hq hp, homeOff_of_plainOff d hp, hn, hn', ite_self]

end

/-- A write of a register that no block acts on sets its fields by their access types. -/
theorem writeReg_of_no_action {z : Fixed} {d : Dev} {w : RegWrite} (hq : fullAccess w.q = true) (ha : writeAction z d w = none) :
    writeReg z d w = ((writeFields z d w).1, writeFollow (writeFields z d w).2 w) := by
  simp [writeReg, permitted_of_fullAccess hq, ha]

/-- A naturally aligned 4-byte REGISTER_WRITE. -/
theorem exec_registerWrite4 (s : State) (q : Requester) {off : Nat} (v : BitVec 64) (h : off % 4 = 0) :
    exec (.registerWrite q off false v) s = s.updFixed fun z d => write4 z d q off (v.toNat % 2 ^ 32) := by
  show execRegisterWrite q off false v s = _
  simp [execRegisterWrite, h]

/-! ### Frames -/

/-- Setting fields, over a device that reads as before, changes no other register. -/
theorem regsFrom_puts (s : State) (b : Dev) (l : List (Fld × Nat)) (h : ∀ f, b.get f = s.d.get f) :
    RegsFrom s b { s with d := b.puts l } (l.map Prod.fst) := by
  refine ⟨?_, fun f hf => ?_⟩
  · rw [Dev.puts_eq l b]
  · rw [Dev.get_puts_other l b f, h f]
    rintro p hp e
    exact hf (List.mem_map.2 ⟨p.1, List.mem_map_of_mem hp, e.symm⟩)

theorem onlyRegs_puts (s : State) (l : List (Fld × Nat)) : OnlyRegs s { s with d := s.d.puts l } (l.map Prod.fst) := regsFrom_puts s s.d l fun _ => rfl

theorem Dev.get_puts_singleton (d : Dev) (f : Fld) (v : Nat) : (d.puts [(f, v)]).get f = v % 2 ^ f.len := Dev.get_put_same d f v

/-- A field that is set to bits of a word reads them. -/
theorem Dev.get_puts_bits (d : Dev) (f : Fld) (w : Nat) : (d.puts [(f, bitsAt w f.lo f.len)]).get f = bitsAt w f.lo f.len :=
  (d.get_puts_singleton f _).trans (Nat.mod_mod _ _)

/-! ### The accesses that `register_accesses` names -/

/-- The device with a value in the read latch of a requester, under the register it belongs to (R11). -/
def Dev.setLatch (d : Dev) (q : Requester) (p : Nat × Nat) : Dev :=
  { d with host := { d.host with rlatch := tset d.host.rlatch (stageNumber q) p } }

/-- The write of a 32-bit register. -/
def narrowWrite (q : Requester) (r : RegDecl) (i j v : Nat) : RegWrite := ⟨q, r, i, j, false, v, true, 0, 32⟩

section
variable {s : State} {q : Requester} (hq : Reaches s q)
include hq

/-- A 4-byte REGISTER_WRITE of a 32-bit register that no block acts on sets its fields. -/
theorem exec_registerWrite_narrow (v : BitVec 64) {off i j : Nat} {r : RegDecl} (h4 : off % 4 = 0) (hp : PlainOff off) (hr : regAt off = some (r, i, j))
    (hw : r.wide = false) (ha : writeAction s.z s.d (narrowWrite q r i j (v.toNat % 2 ^ 32)) = none) :
    exec (.registerWrite q off false v) s = .next { s with
      z := (writeFields s.z s.d (narrowWrite q r i j (v.toNat % 2 ^ 32))).1
      d := writeFollow (writeFields s.z s.d (narrowWrite q r i j (v.toNat % 2 ^ 32))).2 (narrowWrite q r i j (v.toNat % 2 ^ 32)) } := by
  have hf : fullAccess q = true := hq.1
  have e : write4 s.z s.d q off (v.toNat % 2 ^ 32) = _ :=
    (write4_narrow hf (decodes_of_reaches hq off) hp hr hw).trans (writeReg_of_no_action (w := narrowWrite q r i j (v.toNat % 2 ^ 32)) hf ha)
  simp only [exec_registerWrite4 s q v h4, State.updFixed, e]

theorem exec_write_MEM_ASM_CFG (v : BitVec 64) :
    exec (.registerWrite q 0x6030004 false v) s = .next { s with d := s.d.puts [(F.MEM_ASM_CFG_TIMEOUT_NS, bitsAt (v.toNat % 2 ^ 32) 0 12)] } := by
  rw [exec_registerWrite_narrow hq v rfl (by unfold PlainOff; omega) regAt_MEM_ASM_CFG rfl rfl]
  rfl

theorem exec_write_MEM_SCRUB (v : BitVec 64) :
    exec (.registerWrite q 0x6030008 false v) s =
      .next { s with d := s.d.puts [(F.MEM_SCRUB_EN, bitsAt (v.toNat % 2 ^ 32) 0 1), (F.MEM_SCRUB_INTERVAL_H, bitsAt (v.toNat % 2 ^ 32) 8 8)] } := by
  rw [exec_registerWrite_narrow hq v rfl (by unfold PlainOff; omega) regAt_MEM_SCRUB rfl rfl]
  rfl

theorem exec_write_LCS_TAMPER (v : BitVec 64) :
    exec (.registerWrite q 0x200008 false v) s = .next { s with d := s.d.puts [(F.LCS_TAMPER_LATCHED,
      s.d.get F.LCS_TAMPER_LATCHED - (s.d.get F.LCS_TAMPER_LATCHED &&& bitsAt (v.toNat % 2 ^ 32) 0 6))] } := by
  rw [exec_registerWrite_narrow hq v rfl (by unfold PlainOff; omega) regAt_LCS_TAMPER rfl rfl]
  rfl

/-- The fields of HOST_ID are read-only (R5). -/
theorem exec_write_HOST_ID (v : BitVec 64) : exec (.registerWrite q 0x0 false v) s = .next s := by
  rw [exec_registerWrite_narrow hq v rfl (by unfold PlainOff; omega) regAt_HOST_ID rfl rfl]
  rfl

theorem exec_write_unmapped (v : BitVec 64) : exec (.registerWrite q 0x20 false v) s = .next s := by
  obtain ⟨h20, h1C⟩ := regAt_unmapped
  rw [exec_registerWrite4 s q v rfl]
  simp only [State.updFixed, write4_unmapped hq.1 (by unfold PlainOff; omega) h20 h1C]

theorem exec_stage_HOST_FN_BAR4 (v : BitVec 32) :
    exec (.halfWriteStage q 0x400 v) s = .next { s with d := s.d.setStaged q (some (0x400, v.toNat)) } := by
  have hf : fullAccess q = true := hq.1
  have e : write4 s.z s.d q 0x400 v.toNat = (s.z, s.d.setStaged q (some (0x400, v.toNat))) :=
    (write4_lower hf (decodes_of_reaches hq _) (by unfold PlainOff; omega) regAt_HOST_FN_BAR4 rfl).trans (writeReg_of_no_action hf rfl)
  show execHalfWriteStage q 0x400 v s = _
  simp [execHalfWriteStage, State.updFixed, e]

/-- The upper half of HOST_FN_BAR4, with the lower half staged, sets the whole register and empties the stage (R11). -/
theorem exec_commit_HOST_FN_BAR4 (w : BitVec 32) {x : Nat} (hs : tfind s.d.host.wstage (stageNumber q) = some (0x400, x)) :
    exec (.halfWriteCommit q 0x404 w) s =
      .next { s with d := (s.d.setStaged q none).puts [(F.HOST_FN_BAR4_BASE 0, bitsAt (x + w.toNat * 2 ^ 32) 0 48)] } := by
  have hf : fullAccess q = true := hq.1
  have e : write4 s.z s.d q 0x404 w.toNat = (s.z, (s.d.setStaged q none).puts [(F.HOST_FN_BAR4_BASE 0, bitsAt (x + w.toNat * 2 ^ 32) 0 48)]) :=
    (write4_upper hf (decodes_of_reaches hq _) (by unfold PlainOff; omega) regAt_HOST_FN_BAR4_upper regAt_HOST_FN_BAR4 rfl hs).trans
      (writeReg_of_no_action hf rfl)
  show execHalfWriteCommit q 0x404 w s = _
  simp [execHalfWriteCommit, State.updFixed, e]

/-- A read of the lower half of HOST_FN_BAR4 answers it and latches the upper half (R11). -/
theorem exec_read_HOST_FN_BAR4 :
    exec (.halfReadLatch q 0x400 false) s = .next { s with d :=
      (s.d.setLatch q (0x400, s.d.get (F.HOST_FN_BAR4_BASE 0) / 2 ^ 32)).emit (.readReply q (s.d.get (F.HOST_FN_BAR4_BASE 0) % 2 ^ 32)) } := by
  have hp : PlainOff 0x400 := by unfold PlainOff; omega
  have e : read4 s.z s.d q 0x400 =
      (s.d.get (F.HOST_FN_BAR4_BASE 0) % 2 ^ 32, s.d.setLatch q (0x400, s.d.get (F.HOST_FN_BAR4_BASE 0) / 2 ^ 32)) := by
    simp [read4, decodes_of_reaches hq, target_of_fullAccess s.z hq.1 hp, homeOff_of_plainOff s.d hp, regAt_HOST_FN_BAR4, readReg, readField, Dev.setLatch]
  show execHalfReadLatch q 0x400 false s = _
  simp [execHalfReadLatch, State.upd, e, readAnswer_of_reaches hq (s.d.setLatch q _) rfl]

end

/-- An access that R10 does not let act on registers is counted; where it is a read, zero is the answer. -/
theorem exec_accessError (s : State) (f : Fin 64) (read : Bool) {off len : Nat} {whole : Bool} (hd : s.d.host.d3.contains f.val = false)
    (h : barAccessOk off len whole = false) :
    exec (.bar0AccessError (.fn f) read off len whole) s =
      .next { s with d := Dev.puts (if read then s.d.emit (.readReply (.fn f) 0) else s.d) [(F.HOST_CNT_ACCESS_ERR, s.d.get F.HOST_CNT_ACCESS_ERR + 1)] } := by
  have hc : s.d.accessError (.fn f) = s.d.bump F.HOST_CNT_ACCESS_ERR 1 := by simp only [Dev.accessError, hd, Bool.false_eq_true, if_false]
  have ha : (s.d.bump F.HOST_CNT_ACCESS_ERR 1).readAnswer (.fn f) 0 = (s.d.bump F.HOST_CNT_ACCESS_ERR 1).emit (.readReply (.fn f) 0) := by
    simp only [Dev.readAnswer, Dev.bump_host, hd, Bool.false_eq_true, if_false]
  unfold barAccessOk at h
  show execBar0AccessError (.fn f) read off len whole s = _
  simp only [execBar0AccessError, State.upd, h, Bool.false_eq_true, if_false, hc, ha]
  cases read <;> rfl

/-- Settles O3: each access is run by the lemma on its register above, and a list of fields that is set leaves every other register. -/
theorem registerAccesses : Obligations.register_accesses := by
  unfold Obligations.register_accesses
  refine ⟨fun s q v hq => ⟨?_, ?_, ?_, exec_write_HOST_ID hq v, exec_write_unmapped hq v⟩, fun s f off len whole hd h => ⟨?_, ?_⟩,
    fun s q v w hq => ⟨?_, fun hlt => ?_⟩⟩
  · refine ⟨_, exec_write_MEM_ASM_CFG hq v, (Dev.get_puts_bits ..).trans ?_, onlyRegs_puts s _⟩
    show v.toNat % 2 ^ 32 / 2 ^ 0 % 2 ^ 12 = _
    omega
  · have hEn := Dev.get_put_other (s.d.puts [(F.MEM_SCRUB_EN, bitsAt (v.toNat % 2 ^ 32) 0 1)]) F.MEM_SCRUB_INTERVAL_H F.MEM_SCRUB_EN
      (bitsAt (v.toNat % 2 ^ 32) 8 8) (by decide)
    refine ⟨_, exec_write_MEM_SCRUB hq v, hEn.trans ((Dev.get_puts_bits ..).trans ?_), (Dev.get_puts_bits ..).trans ?_, onlyRegs_puts s _⟩
    · show v.toNat % 2 ^ 32 / 2 ^ 0 % 2 ^ 1 = _
      omega
    · show v.toNat % 2 ^ 32 / 2 ^ 8 % 2 ^ 8 = _
      omega
  · refine ⟨_, exec_write_LCS_TAMPER hq v, fun hlt => ?_, onlyRegs_puts s _⟩
    have hv : bitsAt (v.toNat % 2 ^ 32) 0 6 = v.toNat % 2 ^ 6 := by unfold bitsAt; omega
    rw [Dev.get_puts_singleton, hv]
    exact Nat.mod_eq_of_lt (Nat.lt_of_le_of_lt (Nat.sub_le _ _) hlt)
  · exact ⟨_, exec_accessError s f false hd h, Dev.get_puts_singleton .., onlyRegs_puts s _⟩
  · exact ⟨_, exec_accessError s f true hd h, Dev.get_puts_singleton .., regsFrom_puts s (s.d.emit _) _ fun _ => rfl⟩
  · have hs : tfind (s.d.setStaged q (some (0x400, v.toNat))).host.wstage (stageNumber q) = some (0x400, v.toNat) := tfind_tset_same ..
    have hq' : Reaches { s with d := s.d.setStaged q (some (0x400, v.toNat)) } q := hq
    refine ⟨_, exec_stage_HOST_FN_BAR4 hq v, hs, rfl, _, exec_commit_HOST_FN_BAR4 hq' w hs, ?_, tfind_terase_same ..,
      regsFrom_puts s (Dev.setStaged _ q none) _ fun _ => rfl⟩
    have hv := v.isLt
    refine (Dev.get_puts_bits ..).trans ?_
    show (v.toNat + w.toNat * 2 ^ 32) / 2 ^ 0 % 2 ^ 48 = _
    omega
  · exact ⟨_, exec_read_HOST_FN_BAR4 hq, rfl, tfind_tset_same .., rfl⟩

/-! ### The state after reset (R7) -/

theorem Dev.puts_regs (l : List (Fld × Nat)) : ∀ d : Dev, (d.puts l).regs = RegFile.puts d.regs l := by
  induction l with
  | nil => intro d; rfl
  | cons p l ih => intro d; exact ih (d.put p.1 p.2)

/-- The registers after reset are those of an untouched device with the fuse shadow and the nonce set (R7, R29). -/
theorem reset_device : State.reset.d = Dev.puts { free := 4, flash := State.reset.d.flash } (Fuses.part.shadow ++ nonceFields 0) := by
  rw [Dev.puts_eq, Dev.puts_regs]
  rfl

theorem reset_get {f : Fld} (h : f.key ∉ (Fuses.part.shadow ++ nonceFields 0).map fun p => p.1.key) : State.reset.d.get f = f.rst := by
  rw [reset_device, Dev.get_puts_other]
  · rfl
  · intro p hp e
    exact h (List.mem_map.2 ⟨p, hp, e.symm⟩)

/-- Settles O2: a field outside the fuse shadow and the nonce is not listed, and reads its reset value; STAGE is one of them. -/
theorem resetState : Obligations.reset_state := by
  have hstage : F.FW_MBOX_STATUS_STAGE.key ∉ (Fuses.part.shadow ++ nonceFields 0).map fun p => p.1.key := by decide
  exact ⟨fun _ h => reset_get h, fun _ => rfl, rfl, reset_get hstage, rfl, rfl⟩

end Sys2Proof.Machine
end

section
/-! The set-up lock (R6, R301): which commands reach the fixed part, and what they leave of the set-up once the lock is closed. -/
namespace Sys2Proof.Machine

open Sys2Proof Sys2Proof.Safety

/-! ### Writes under a closed lock (R6) -/

section
variable {z : Fixed} (h : z.setup.locked = true)
include h

theorem layoutWrite_locked (d : Dev) (v : Nat) : layoutWrite z d v = z := by simp [layoutWrite, h]

theorem closeLock_of_locked : { z.setup with locked := true } = z.setup := by rw [← h]

theorem writeField_keeps_setup (d : Dev) (w : RegWrite) (a : Access) (f : Fld) : (writeField z d w a f).1.setup = z.setup := by
  cases a <;> simp [writeField, h]

theorem writeFields_keeps_setup (d : Dev) (w : RegWrite) : (writeFields z d w).1.setup = z.setup :=
  foldl_keeps (fun p : Fixed × Dev => p.1.setup = z.setup) _
    (fun p f hp => (writeField_keeps_setup (by rw [hp, h]) p.2 w f.1 (f.2 w.i w.j)).trans hp) _ _ rfl

/-- Of the actions of the blocks only those of HOST_SETUP_LOCK and HOST_PART_CFG reach the set-up. -/
theorem writeAction_keeps_setup {d : Dev} {w : RegWrite} {p : Fixed × Dev} (hp : writeAction z d w = some p) : p.1.setup = z.setup := by
  unfold writeAction at hp
  split at hp
  case h_1 => -- HOST_SETUP_LOCK
    obtain rfl := Option.some.inj hp
    simpa [h] using closeLock_of_locked h
  case h_2 => -- HOST_PART_CFG
    obtain rfl := Option.some.inj hp
    rw [layoutWrite_locked h]
  case h_6 => -- FW_FEAT_REQ
    obtain ⟨-, hp⟩ := Option.ite_none_right_eq_some.1 hp
    obtain rfl := Option.some.inj hp
    rfl
  case h_19 => -- the state words
    obtain ⟨u, -, rfl⟩ := Option.map_eq_some_iff.1 hp
    rfl
  all_goals
    obtain rfl := Option.some.inj hp
    rfl

theorem writeReg_keeps_setup (d : Dev) (w : RegWrite) : (writeReg z d w).1.setup = z.setup := by
  unfold writeReg
  split
  · rfl
  · split
    next ha => exact writeAction_keeps_setup h ha
    next => exact writeFields_keeps_setup h d w

theorem write4_keeps_setup (d : Dev) (q : Requester) (off v : Nat) : (write4 z d q off v).1.setup = z.setup := by
  unfold write4
  split
  · rfl
  · cases target z q off with
    | unmapped => rfl
    | vfInfo f => rfl
    | msix i => rfl
    | reg o =>
      dsimp only
      split
      · split <;> exact writeReg_keeps_setup h _ _
      · split
        · split
          · rfl
          · exact writeReg_keeps_setup h _ _
        · rfl

theorem write8_keeps_setup (d : Dev) (q : Requester) (off v : Nat) : (write8 z d q off v).1.setup = z.setup := by
  have h4 := write4_keeps_setup h d q off (v % 2 ^ 32)
  rcases hw : write4 z d q off (v % 2 ^ 32) with ⟨z', d'⟩
  rw [hw] at h4
  unfold write8
  extract_lets whole
  clear_value whole
  cases whole with
  | some w => exact writeReg_keeps_setup h d w
  | none =>
    simp only [hw]
    exact (write4_keeps_setup (by rw [h4, h]) d' q (off + 4) _).trans h4

end

/-! ### Which commands reach the fixed part, and what they do to the set-up -/

/-- The commands that may change the set-up or the fuses: register writes, the set-up commands, RELEASE, a burn, and those in which the module can pass a fundamental
reset or lose its main power. -/
def reachesFixed : Instr → Bool
  | .registerWrite .. | .halfWriteStage .. | .halfWriteCommit .. | .setupLockClose _ | .layoutWrite .. | .release _ | .fuseBurn _ => true
  | c => opensLock c

/-- Every other command changes the device alone. -/
theorem exec_changes_device (c : Instr) (s : State) (h : reachesFixed c = false) : ∃ d, exec c s = .next { s with d := d } := by
  cases c
  case registerWrite | halfWriteStage | halfWriteCommit | setupLockClose | layoutWrite | release | fuseBurn | perstAssert | pwrEnDeassert | vinUndervoltage
    | vinOvervoltage | overcurrent | stageFault | auxPowerLoss | thermalSensorRead | stackTempRead => exact nomatch h
  all_goals exact ⟨_, rfl⟩

theorem fuseBurn_setup (z : Fixed) (d : Dev) (mask : Nat) : (fuseBurn z d mask).1.setup = z.setup := by
  unfold fuseBurn
  split
  · rfl
  · cases d.fw.burns <;> rfl

theorem fundamentalReset_setup (z : Fixed) (d : Dev) : (fundamentalReset z d).1.setup = {} := rfl

theorem mainPowerLost_setup (z : Fixed) (d : Dev) (cause : Nat) (fault : Bool) : (mainPowerLost z d cause fault).1.setup = {} := fundamentalReset_setup z d

/-- What holds of the fixed part on both sides of a condition holds of it after the condition. -/
theorem fixed_ite (P : Fixed → Prop) {c : Prop} [Decidable c] {a b : Fixed × Dev} (ha : P a.1) (hb : P b.1) : P (if c then a else b).1 := by
  split
  · exact ha
  · exact hb

/-- A set-up that a command has left alone or set back. -/
def SetupKeptOrReset (z z' : Fixed) : Prop := z'.setup = z.setup ∨ z'.setup = {}

theorem loseMain_setup (z : Fixed) (d : Dev) (cause : Nat) (fault : Bool) : SetupKeptOrReset z (loseMain z d cause fault).1 := by
  unfold loseMain
  split
  · exact .inl rfl
  · exact .inr (mainPowerLost_setup ..)

theorem thermalTrip_setup (z : Fixed) (d : Dev) (t : Option (Nat × Nat × Nat)) : SetupKeptOrReset z (thermalTrip z d t).1 := by
  cases t with
  | none => exact .inl rfl
  | some t => exact .inr (mainPowerLost_setup ..)

/-- A command in which the module can be reset or lose its main power leaves the set-up alone or sets all of it back. -/
theorem exec_opensLock_setup {c : Instr} (s : State) (h : opensLock c = true) : ∃ t, exec c s = .next t ∧ SetupKeptOrReset s.z t.z := by
  have hkeep : SetupKeptOrReset s.z s.z := .inl rfl
  cases c
  case perstAssert => exact ⟨_, rfl, fixed_ite (SetupKeptOrReset s.z) hkeep (fixed_ite (SetupKeptOrReset s.z) (.inr (fundamentalReset_setup ..)) hkeep)⟩
  case pwrEnDeassert => exact ⟨_, rfl, fixed_ite (SetupKeptOrReset s.z) (loseMain_setup ..) hkeep⟩
  case vinUndervoltage => exact ⟨_, rfl, loseMain_setup ..⟩
  case vinOvervoltage => exact ⟨_, rfl, loseMain_setup ..⟩
  case overcurrent => exact ⟨_, rfl, loseMain_setup ..⟩
  case stageFault => exact ⟨_, rfl, loseMain_setup ..⟩
  case auxPowerLoss => exact ⟨_, rfl, fixed_ite (SetupKeptOrReset s.z) (loseMain_setup ..) hkeep⟩
  case thermalSensorRead => exact ⟨_, rfl, fixed_ite (SetupKeptOrReset s.z) hkeep (thermalTrip_setup ..)⟩
  case stackTempRead => exact ⟨_, rfl, fixed_ite (SetupKeptOrReset s.z) hkeep (thermalTrip_setup ..)⟩
  all_goals exact nomatch h

/-- What stays of the set-up under a closed lock: all but the layout, and that too once RELEASE has sampled it (R6, R345). -/
def SetupKept (z z' : Fixed) : Prop :=
  z'.setup = { z.setup with layout := z'.setup.layout } ∧ (z.setup.layout.isSome = true → z'.setup.layout = z.setup.layout)

theorem setupKept_of_eq {z z' : Fixed} (h : z'.setup = z.setup) : SetupKept z z' := by
  unfold SetupKept
  rw [h]
  exact ⟨rfl, fun _ => rfl⟩

/-- RELEASE samples the layout in effect, which is the sampled one where there is one (R345). -/
theorem setupKept_sampled (z : Fixed) : SetupKept z { z with setup := { z.setup with layout := some z.layout } } := by
  refine ⟨rfl, fun hs => ?_⟩
  obtain ⟨v, hv⟩ := Option.isSome_iff_exists.1 hs
  simp [Fixed.layout, hv]

/-- With no command waiting a step changes the device alone. -/
theorem step_nil (s : State) (h : s.pending = []) : step s = .next { s with d := s.d.tick } := by
  simp [step, h]

section
variable {s : State} (h : s.z.setup.locked = true)
include h

theorem exec_registerWrite_keeps_setup (q : Requester) (off : Nat) (size8 : Bool) (v : BitVec 64) :
    ∃ t, exec (.registerWrite q off size8 v) s = .next t ∧ t.z.setup = s.z.setup :=
  ⟨_, rfl, fixed_ite (·.setup = s.z.setup) rfl (fixed_ite (·.setup = s.z.setup) (write8_keeps_setup h ..) (write4_keeps_setup h ..))⟩

/-- A command that passes no reset and loses no power keeps the set-up under its closed lock. -/
theorem exec_keeps_setup {c : Instr} (hc : opensLock c = false) : ∃ t, exec c s = .next t ∧ SetupKept s.z t.z := by
  have hkeep : SetupKept s.z s.z := setupKept_of_eq rfl
  by_cases hf : reachesFixed c = false
  · obtain ⟨d, hd⟩ := exec_changes_device c s hf
    exact ⟨_, hd, hkeep⟩
  · cases c
    case registerWrite q off size8 v =>
      obtain ⟨t, ht, hz⟩ := exec_registerWrite_keeps_setup h q off size8 v
      exact ⟨t, ht, setupKept_of_eq hz⟩
    case halfWriteStage => exact ⟨_, rfl, fixed_ite (SetupKept s.z) hkeep (setupKept_of_eq (write4_keeps_setup h ..))⟩
    case halfWriteCommit => exact ⟨_, rfl, fixed_ite (SetupKept s.z) hkeep (setupKept_of_eq (write4_keeps_setup h ..))⟩
    case setupLockClose => exact ⟨_, rfl, fixed_ite (SetupKept s.z) (setupKept_of_eq (closeLock_of_locked h)) hkeep⟩
    case layoutWrite => exact ⟨_, rfl, fixed_ite (SetupKept s.z) (setupKept_of_eq (congrArg Fixed.setup (layoutWrite_locked h ..))) hkeep⟩
    case fuseBurn => exact ⟨_, rfl, setupKept_of_eq (fuseBurn_setup ..)⟩
    case release =>
      refine ⟨_, rfl, ?_⟩
      show SetupKept s.z (ite _ _ _)
      split
      · exact setupKept_sampled s.z
      · exact hkeep
    all_goals exact absurd hc hf

theorem step_keeps_setup {t : State} (ht : step s = .next t) :
    SetupKept s.z t.z ∨ (t.z.setup = {} ∧ ∃ c rest, s.pending = c :: rest ∧ opensLock c = true) := by
  cases hp : s.pending with
  | nil =>
    obtain rfl := Host.Outcome.next.inj ((step_nil s hp).symm.trans ht)
    exact .inl (setupKept_of_eq rfl)
  | cons c rest =>
    rw [step_cons s c rest hp] at ht
    cases ho : opensLock c with
    | false =>
      obtain ⟨u, hu, hk⟩ := exec_keeps_setup (s := { s with pending := rest }) h ho
      obtain rfl := Host.Outcome.next.inj (hu.symm.trans ht)
      exact .inl hk
    | true =>
      obtain ⟨u, hu, hk | hk⟩ := exec_opensLock_setup { s with pending := rest } ho
      all_goals obtain rfl := Host.Outcome.next.inj (hu.symm.trans ht)
      · exact .inl (setupKept_of_eq hk)
      · exact .inr ⟨hk, c, rest, rfl, ho⟩

end

/-- An 8-byte read of a 64-bit register answers it at once (R11). -/
theorem read8_wide {z : Fixed} {d : Dev} {q : Requester} {off i j : Nat} {r : RegDecl} (hq : fullAccess q = true) (hd : d.decodes q off = true)
    (hp : PlainOff off) (hr : regAt off = some (r, i, j)) (hw : r.wide = true) : read8 z d q off = (readReg z d q r i j, d) := by
  simp [read8, target_of_fullAccess z hq hp, hd, homeOff_of_plainOff d hp, hr, hw]

/-- An 8-byte read of the entry of a function in HOST_FN_CFG answers its three fields (R301). -/
theorem read8_HOST_FN_CFG {s : State} {q : Requester} (hq : Reaches s q) (f : Fin 64) : read8 s.z s.d q (0x200 + 8 * f.val) =
    (s.z.partOfFn f + s.z.get (F.HOST_FN_CFG_CTX_FIRST f) * 2 ^ 8 + s.z.get (F.HOST_FN_CFG_CTX_COUNT f) * 2 ^ 32, s.d) := by
  have hfirst : s.z.partOfFn f = 0 + s.z.get (F.HOST_FN_CFG_PARTITION f) * 2 ^ 0 := by rw [Nat.zero_add, Nat.pow_zero, Nat.mul_one]; rfl
  rw [read8_wide hq.1 (decodes_of_reaches hq _) (by unfold PlainOff; omega) (regAt_HOST_FN_CFG f) rfl, hfirst]
  unfold readReg
  dsimp only
  -- one `rw` per field: the kernel would unfold the products by powers of two in a proof by `simp`
  rw [List.foldl_cons, List.foldl_cons, List.foldl_cons, List.foldl_nil]
  rfl

/-- Settles O10: the register writes, the read, and the step by the front of the queue. -/
theorem setupLockIsKept : Obligations.setup_lock_is_kept := by
  unfold Obligations.setup_lock_is_kept
  refine fun s h => ⟨exec_registerWrite_keeps_setup h, fun q f hq => ?_, fun t ht => step_keeps_setup h ht⟩
  have h8 : (0x200 + 8 * f.val) % 8 = 0 := by omega
  show execHalfReadLatch q (0x200 + 8 * f.val) true s = _
  simp only [execHalfReadLatch, State.upd, if_true, h8, ne_eq, not_true_eq_false, if_false, read8_HOST_FN_CFG hq, readAnswer_of_reaches hq s.d rfl]

end Sys2Proof.Machine
end

section
/-! The enable state machine (R30 to R36): what a write of EN, the end of a start and a safe point do, by the state of the unit; the walk of a core through it. -/
namespace Sys2Proof.Machine

open Sys2Proof Sys2Proof.Safety

/-! ### Lists of fields that are set -/

/-- A field that stands in a list of fields with distinct places reads the value that stands with it. -/
theorem Dev.get_puts_mem {f : Fld} {v : Nat} (l : List (Fld × Nat)) :
    ∀ d : Dev, (l.map fun p => p.1.key).Nodup → (f, v) ∈ l → (d.puts l).get f = v % 2 ^ f.len := by
  induction l with
  | nil => exact fun _ _ hm => nomatch hm
  | cons p l ih =>
    intro d hl hm
    obtain ⟨hp, hl⟩ := List.nodup_cons.1 hl
    rw [Dev.puts_cons]
    rcases List.mem_cons.1 hm with rfl | hm
    · rw [Dev.get_puts_other l _ f fun q hq e => hp (List.mem_map.2 ⟨q, hq, e.symm⟩), Dev.get_put_same]
    · exact ih _ hl hm

/-! ### The commands reach the state machine -/

section
variable {s : State} {q : Requester} {u : SwUnit}

theorem exec_enWrite (h : enReaches s.z s.d q u = true) (v : Fin 2) :
    exec (.enWrite q u v) s = .next { s with d := s.d.writeEn s.z (s.d.homeUnit u) v.val } := by
  show execEnWrite q u v s = _
  simp only [execEnWrite, State.upd, h, if_true]

end

/-! ### A write of EN, by the state (R31) -/

section
variable {z : Fixed} {d : Dev} {u : SwUnit}

/-- EN = 1 has been written to a unit that is OFF: its failed starts are forgotten. -/
def Dev.enabled (d : Dev) (u : SwUnit) : Dev := (d.put (swEN u) 1).setStarts (unitWord u) none

theorem Dev.writeEn_off (h : d.stateOf u = codeOFF) (hm : mayStart z (d.put (swEN u) 1) u = true) :
    d.writeEn z u 1 = (d.enabled u).startUnit z u := by
  unfold Dev.stateOf codeOFF at h
  simp only [Dev.writeEn, Dev.enabled, h, hm, and_self, if_true]

theorem Dev.writeEn_starting (h : d.stateOf u = codeSTARTING) (v : Nat) : d.writeEn z u v = d.put (swEN u) v := by
  unfold Dev.stateOf codeSTARTING at h
  simp only [Dev.writeEn, h]

theorem Dev.writeEn_stopping (h : d.stateOf u = codeSTOPPING) (v : Nat) : d.writeEn z u v = (d.put (swEN u) v).put (swPENDING (unitWord u)) v := by
  unfold Dev.stateOf codeSTOPPING at h
  simp only [Dev.writeEn, h]

end

/-! ### A core (R33, R36, R209) -/

/-- The count of failed starts after one more: a second failed start leaves the unit OFF at its safe point (R32). -/
def failedStarts (d : Dev) (u : SwUnit) : Nat := if tfind d.starts (unitWord u) = some 2 then 3 else 1

theorem Dev.startFails_eq (d : Dev) (u : SwUnit) :
    d.startFails u = (d.put (swSTATE (unitWord u)) codeSTOPPING).setStarts (unitWord u) (some (failedStarts d u)) := by
  simp [Dev.startFails, failedStarts]

/-- The device with the scratchpad of a core cleared, its work gone and its failed starts forgotten. -/
def Dev.coreCleared (d : Dev) (n : Fin 256) : Dev :=
  { d with mem := Memory.clear d.mem (scratchAddr n.val 0) 0x80000, core := terase d.core n.val, starts := terase d.starts (unitWord (.core n)) }

/-! The fields that the starting of a core sets, and those that the end of its start sets, by its outcome. -/

def coreStartFields (n : Fin 256) : List (Fld × Nat) :=
  [(F.CORE_STATE_EN n, 1), (F.CORE_STATE_STATE n, codeSTARTING), (F.CORE_STATE_ENABLE_PENDING n, 0), (F.POOL_SP_STATUS_CLEARING n, 1)]

def coreOnFields (d : Dev) (n : Fin 256) : List (Fld × Nat) :=
  [(F.CORE_STATE_STATE n, codeON), (F.CORE_STATE_STARTS n, d.get (F.CORE_STATE_STARTS n) + 1), (F.POOL_SP_STATUS_CLEARING n, 0)]

def coreFailFields (n : Fin 256) : List (Fld × Nat) := [(F.CORE_STATE_STATE n, codeSTOPPING), (F.POOL_SP_STATUS_CLEARING n, 0)]

theorem coreStartFields_distinct (n : Fin 256) : ((coreStartFields n).map fun p => p.1.key).Nodup := by
  have := n.isLt
  simp [coreStartFields, Fld.key]
  omega

theorem coreOnFields_distinct (d : Dev) (n : Fin 256) : ((coreOnFields d n).map fun p => p.1.key).Nodup := by
  have := n.isLt
  simp [coreOnFields, Fld.key]
  omega

theorem coreFailFields_distinct (n : Fin 256) : ((coreFailFields n).map fun p => p.1.key).Nodup := by
  have := n.isLt
  simp [coreFailFields, Fld.key]
  omega

section
variable {s : State} {n : Fin 256}

theorem exec_enWrite_core_off {q : Requester} (hq : enReaches s.z s.d q (.core n) = true) (h : s.d.coreState n.val = codeOFF) :
    exec (.enWrite q (.core n) 1) s = .next { s with d := (s.d.coreCleared n).puts (coreStartFields n) } := by
  rw [exec_enWrite hq]
  exact congrArg (fun d => Host.Outcome.next { s with d := d }) (Dev.writeEn_off (u := .core n) h rfl)

theorem exec_enWrite_core_stopping {q : Requester} (hq : enReaches s.z s.d q (.core n) = true) (h : s.d.coreState n.val = codeSTOPPING) :
    exec (.enWrite q (.core n) 1) s = .next { s with d := s.d.puts [(F.CORE_STATE_EN n, 1), (F.CORE_STATE_ENABLE_PENDING n, 1)] } := by
  rw [exec_enWrite hq]
  exact congrArg (fun d => Host.Outcome.next { s with d := d }) (Dev.writeEn_stopping (z := s.z) (u := .core n) h 1)

theorem exec_enWrite_core_starting {q : Requester} (hq : enReaches s.z s.d q (.core n) = true) (h : s.d.coreState n.val = codeSTARTING) :
    exec (.enWrite q (.core n) 0) s = .next { s with d := s.d.puts [(F.CORE_STATE_EN n, 0)] } := by
  rw [exec_enWrite hq]
  exact congrArg (fun d => Host.Outcome.next { s with d := d }) (Dev.writeEn_starting (z := s.z) (u := .core n) h 0)

/-- A start that succeeds at the first attempt. -/
theorem exec_startingComplete_core (lanes : BitVec 6) (ms : BitVec 10) (h : s.d.coreState n.val = codeSTARTING) (hen : s.d.get (F.CORE_STATE_EN n) = 1)
    (hfirst : tfind s.d.starts (unitWord (.core n)) ≠ some 2) :
    exec (.startingComplete (.core n) true lanes ms) s =
      .next { s with d := Dev.puts { s.d with starts := terase s.d.starts (unitWord (.core n)) } (coreOnFields s.d n) } := by
  have hs : s.d.get (swSTATE (unitWord (.core n))) = codeSTARTING := h
  have he : s.d.get (swEN (.core n)) = 1 := hen
  show execStartingComplete (.core n) true lanes ms s = _
  simp [execStartingComplete, State.upd, Dev.homeUnit, Dev.startEnds, hs, he, Dev.partStops, Dev.reachOn, Dev.startMended, hfirst]
  rfl

theorem exec_startTimeLimit_core (h : s.d.coreState n.val = codeSTARTING) :
    exec (.startTimeLimit (.core n)) s =
      .next { s with d := Dev.puts { s.d with starts := tset s.d.starts (unitWord (.core n)) (failedStarts s.d (.core n)) } (coreFailFields n) } := by
  have hs : s.d.get (swSTATE (unitWord (.core n))) = codeSTARTING := h
  show execStartTimeLimit (.core n) s = _
  simp [execStartTimeLimit, State.upd, Dev.homeUnit, Dev.startEnds, hs, Dev.startFails_eq]
  rfl

/-- A core with no start waiting, neither by ENABLE_PENDING nor after a failed one, is OFF at its safe point (R31). -/
theorem exec_safePointReached_core (h : s.d.coreState n.val = codeSTOPPING) (hpend : s.d.get (F.CORE_STATE_ENABLE_PENDING n) = 0)
    (hnone : tfind s.d.starts (unitWord (.core n)) = none) :
    exec (.safePointReached (.core n)) s =
      .next { s with d := Dev.puts { s.d with starts := terase s.d.starts (unitWord (.core n)) } [(F.CORE_STATE_STATE n, codeOFF)] } := by
  have hs : s.d.get (swSTATE (unitWord (.core n))) = codeSTOPPING := h
  have hp : s.d.get (swPENDING (unitWord (.core n))) = 0 := hpend
  show execSafePointReached (.core n) s = _
  simp [execSafePointReached, State.upd, Dev.homeUnit, Dev.safePoint, hs, hp, hnone, Dev.isSafe, Dev.offWork]
  rfl

end

/-- Settles O4: each command is run by the lemma on it above; the fields that it sets have distinct places, and every other register reads as before. -/
theorem coreEnableMachine : Obligations.core_enable_machine := by
  unfold Obligations.core_enable_machine
  refine ⟨fun s q n lanes ms hq => ⟨fun h => ?_, fun h hen hfirst => ?_, fun h => ?_, fun h hpend hnone => ?_⟩, fun s q n hq => ⟨fun h => ?_, fun h => ?_⟩⟩
  · have hread := fun {f v} => Dev.get_puts_mem (f := f) (v := v) _ (s.d.coreCleared n) (coreStartFields_distinct n)
    refine ⟨_, exec_enWrite_core_off hq h, hread (f := F.CORE_STATE_EN n) (v := 1) (by simp [coreStartFields]),
      hread (v := codeSTARTING) (by simp [coreStartFields]), by rw [Dev.puts_mem]; rfl,
      hread (f := F.POOL_SP_STATUS_CLEARING n) (v := 1) (by simp [coreStartFields]), ?_⟩
    rw [Dev.puts_mem]
    exact regsFrom_puts s (s.d.coreCleared n) (coreStartFields n) fun _ => rfl
  · have hread := fun {f v} => Dev.get_puts_mem (f := f) (v := v) _ { s.d with starts := terase s.d.starts (unitWord (.core n)) } (coreOnFields_distinct s.d n)
    refine ⟨_, exec_startingComplete_core lanes ms h hen hfirst, hread (v := codeON) (by simp [coreOnFields]), hread (by simp [coreOnFields]),
      hread (v := 0) (by simp [coreOnFields]), ?_⟩
    rw [Dev.puts_starts]
    exact regsFrom_puts s _ _ fun _ => rfl
  · have hread := fun {f v} => Dev.get_puts_mem (f := f) (v := v) _ { s.d with starts := tset s.d.starts (unitWord (.core n)) (failedStarts s.d (.core n)) }
      (coreFailFields_distinct n)
    refine ⟨_, exec_startTimeLimit_core h, hread (v := codeSTOPPING) (by simp [coreFailFields]), ?_⟩
    rw [Dev.puts_starts]
    exact regsFrom_puts s _ _ fun _ => rfl
  · refine ⟨_, exec_safePointReached_core h hpend hnone, Dev.get_puts_singleton .., ?_⟩
    rw [Dev.puts_starts]
    exact regsFrom_puts s _ _ fun _ => rfl
  · refine ⟨_, exec_enWrite_core_stopping hq h, ?_, Dev.get_put_same .., onlyRegs_puts s _⟩
    have hstate : (F.CORE_STATE_STATE n).key ≠ (F.CORE_STATE_EN n).key ∧ (F.CORE_STATE_STATE n).key ≠ (F.CORE_STATE_ENABLE_PENDING n).key := by simp [Fld.key]
    exact (Dev.get_puts_other _ _ _ (by simpa using hstate)).trans h
  · refine ⟨_, exec_enWrite_core_starting hq h, ?_, Dev.get_puts_singleton .., onlyRegs_puts s _⟩
    exact (Dev.get_put_other _ _ _ _ (by simp [Fld.key])).trans h

end Sys2Proof.Machine
end

section
/-! What a unit that goes from OFF to STARTING has been cleared of (R33): the scratchpad of a core, the rows of the banks (R67), the die pools of a partition with
their vaults (R207, R209). -/
namespace Sys2Proof.Machine

open Sys2Proof Sys2Proof.Safety

/-! ### Clearing takes entries out -/

/-- A byte that a filter by address takes out of the store reads zero; every other reads as before. -/
theorem Memory.read_filter (p : Nat → Bool) (m : List Host.Cell) (a : Nat) : Memory.read (m.filter fun c => p c.1) a = if p a then Memory.read m a else 0 := by
  induction m with
  | nil => simp [Memory.read]
  | cons c m ih =>
    obtain ⟨b, v⟩ := c
    rw [List.filter_cons]
    by_cases hba : b = a
    · subst hba
      cases hp : p b <;> simp [hp, ih, Memory.read]
    · cases hp : p b <;> simp [ih, Memory.read, hba]

/-- Where a filter does not look at the bytes, what reads zero before it reads zero after it. -/
theorem Memory.read_filter_of_zero {q : Host.Cell → Bool} (hq : ∀ a v w, q (a, v) = q (a, w)) {m : List Host.Cell} {a : Nat} (h : Memory.read m a = 0) :
    Memory.read (m.filter q) a = 0 := by
  have hp : q = fun c => (fun x => q (x, 0)) c.1 := funext fun c => hq c.1 c.2 0
  rw [hp]
  exact (Memory.read_filter (fun x => q (x, 0)) m a).trans (by rw [h, ite_self])

theorem Memory.read_clear_inside (m : List Host.Cell) {a n b : Nat} (h : a ≤ b) (h' : b < a + n) : Memory.read (Memory.clear m a n) b = 0 :=
  (Memory.read_filter (fun x => decide (x < a) || decide (a + n ≤ x)) m b).trans (if_neg (by simp; omega))

theorem Memory.read_clear_of_zero {m : List Host.Cell} (a n : Nat) {b : Nat} (h : Memory.read m b = 0) : Memory.read (Memory.clear m a n) b = 0 :=
  Memory.read_filter_of_zero (fun _ _ _ => rfl) h

/-- A key that a filter takes out of a table has the value of an unlisted one; every other has its value of before. -/
theorem tget_filter {α : Type} (dflt : α) (p : Nat → Bool) (t : Table α) (k : Nat) : tget dflt (t.filter fun c => p c.1) k =
    if p k then tget dflt t k else dflt := by
  induction t with
  | nil => simp [tget]
  | cons c t ih =>
    obtain ⟨j, v⟩ := c
    rw [List.filter_cons]
    by_cases hjk : j = k
    · subst hjk
      cases hp : p j <;> simp_all [tget, tfind]
    · cases hp : p j <;> simp_all [tget, tfind]

/-! ### Frames by the offset of a register -/

theorem Dev.get_put_off {f g : Fld} (d : Dev) (v : Nat) (hf : f.lo < 64) (hg : g.lo < 64) (h : f.off ≠ g.off) : (d.put g v).get f = d.get f :=
  Dev.get_put_other d g f v (by simp only [Fld.key]; omega)

/-! ### Going to STARTING -/

/-- The device as a unit goes from OFF to STARTING by EN = 1, before it is cleared. -/
def Dev.starting (d : Dev) (u : SwUnit) : Dev :=
  (d.enabled u).puts [(swSTATE (unitWord u), codeSTARTING), (swPENDING (unitWord u), 0)]

theorem Dev.stateOf_starting (d : Dev) (u : SwUnit) : (d.starting u).stateOf u = codeSTARTING :=
  Dev.get_puts_mem (f := swSTATE (unitWord u)) (v := codeSTARTING) _ _ (by simp [Fld.key, swSTATE, swPENDING]) (by simp)

theorem exec_enWrite_off {s : State} {q : Requester} {u : SwUnit} (hq : enReaches s.z s.d q u = true) (hu : s.d.homeUnit u = u) (h : s.d.stateOf u = codeOFF)
    (hm : mayStart s.z (s.d.put (swEN u) 1) u = true) :
    exec (.enWrite q u 1) s = .next { s with d := (s.d.enabled u).startUnit s.z u } := by
  rw [exec_enWrite hq, hu]
  exact congrArg (fun d => Host.Outcome.next { s with d := d }) (Dev.writeEn_off h hm)

/-- An index below 64 names its own registers (R12). -/
theorem Dev.cimHome_of_logical (d : Dev) (n : Nat) {m : Nat} (hm : m < 64) : d.cimHome n m = m := if_neg (by omega)

theorem Dev.homeUnit_cim (d : Dev) (n : Fin 256) {m : Fin 68} (hm : m.val < 64) : d.homeUnit (.cim n m) = .cim n m := by
  simp [Dev.homeUnit, Dev.cimHome_of_logical d n hm]

theorem Dev.homeUnit_bank (d : Dev) (n : Fin 256) {m : Fin 68} (b : Fin 2) (hm : m.val < 64) : d.homeUnit (.bank n m b) = .bank n m b := by
  simp [Dev.homeUnit, Dev.cimHome_of_logical d n hm]

/-! ### The place of a bank -/

/-- Two devices in which the rows of index `m` of core `n` stand at the same physical place (R18, R19, R401). -/
structure SamePlace (d e : Dev) (n m : Nat) : Prop where
  core : e.get (F.CORE_ID_PHYSICAL n) = d.get (F.CORE_ID_PHYSICAL n)
  map : e.get (F.CIM_MAP_PHYSICAL n m) = d.get (F.CIM_MAP_PHYSICAL n m)
  duty : e.hlt.duty = d.hlt.duty

theorem SamePlace.rowKeyOf {d e : Dev} {n m : Nat} (h : SamePlace d e n m) (bank r : Nat) : e.rowKeyOf n m bank r = d.rowKeyOf n m bank r := by
  simp only [Dev.rowKeyOf, Dev.dutyMacro, h.core, h.map, h.duty]

theorem SamePlace.row {d e : Dev} {n m : Nat} (h : SamePlace d e n m) (hc : e.cells = d.cells) (bank r : Nat) : e.row n m bank r = d.row n m bank r := by
  rw [Dev.row, Dev.row, h.rowKeyOf, hc]

/-- The rows of a bank have consecutive keys. -/
theorem Dev.rowKeyOf_add (d : Dev) (n m bank r : Nat) : d.rowKeyOf n m bank r = d.rowKeyOf n m bank 0 + r := by
  simp [Dev.rowKeyOf, rowKey]

/-! ### Clearing a bank (R67) -/

/-- The registers of index `m` of a core, and the maps of the core, in which a clear sets fields. -/
def bankRegs (n m : Nat) : List Nat :=
  [0x400000c + 0x4000 * n + 0x80 * m, 0x4000010 + 0x4000 * n + 0x80 * m, 0x4003000 + 0x4000 * n, 0x4003008 + 0x4000 * n, 0x520000 + 0x440 * n + 0x10 * m,
    0x520008 + 0x440 * n + 0x10 * m]

/-- A field of one of the registers that a clear reaches. -/
def InBankRegs (n m : Nat) (g : Fld) : Prop := g.lo < 64 ∧ g.off ∈ bankRegs n m

theorem bankFields_in (n m bank : Nat) :
    ∀ g ∈ [cimVALID n m bank, cimWSID n m bank, cimSLOT n m bank, ksEven n m bank, ksOdd n m bank, F.CIM_BANK_ACTIVE n m, F.CIM_CORE_BANKMAP_ACTIVE n,
      F.CIM_CORE_VALIDMAP_ACTIVE_VALID n], InBankRegs n m g := by
  by_cases hb : bank = 0 <;> simp [InBankRegs, bankRegs, cimVALID, cimWSID, cimSLOT, ksEven, ksOdd, hb]

section
variable (d : Dev) (n m bank : Nat)

theorem Dev.syncMaps_eq : d.syncMaps n m = { d with regs := (d.syncMaps n m).regs } := by
  unfold Dev.syncMaps
  split <;> rfl

/-- A clear of a bank takes its rows and its provenance out, and sets registers. -/
theorem Dev.clearBankAll_eq : d.clearBankAll n m bank = { d with
    regs := (d.clearBankAll n m bank).regs
    cells := (d.clearBank n m bank).cells
    hlt := { d.hlt with provenance := (d.clearBankAll n m bank).hlt.provenance } } := by
  unfold Dev.clearBankAll Dev.setBank
  rw [Dev.syncMaps_eq]
  rfl

@[simp] theorem Dev.syncMaps_mem : (d.syncMaps n m).mem = d.mem := by rw [Dev.syncMaps_eq]
@[simp] theorem Dev.syncMaps_cells : (d.syncMaps n m).cells = d.cells := by rw [Dev.syncMaps_eq]
@[simp] theorem Dev.syncMaps_hlt : (d.syncMaps n m).hlt = d.hlt := by rw [Dev.syncMaps_eq]
@[simp] theorem Dev.clearBankAll_mem : (d.clearBankAll n m bank).mem = d.mem := by rw [Dev.clearBankAll_eq]
@[simp] theorem Dev.clearBankAll_cells : (d.clearBankAll n m bank).cells = (d.clearBank n m bank).cells := by rw [Dev.clearBankAll_eq]
@[simp] theorem Dev.clearBankAll_duty : (d.clearBankAll n m bank).hlt.duty = d.hlt.duty := by rw [Dev.clearBankAll_eq]

variable {n m} {f : Fld} (hf : f.lo < 64) (hoff : f.off ∉ bankRegs n m)
include hf hoff

theorem Dev.get_put_bankReg {g : Fld} (v : Nat) (hg : InBankRegs n m g) : (d.put g v).get f = d.get f :=
  Dev.get_put_off d v hf hg.1 fun e => hoff (e ▸ hg.2)

theorem Dev.get_syncMaps : (d.syncMaps n m).get f = d.get f := by
  have hin := bankFields_in n m 0
  unfold Dev.syncMaps
  split
  · dsimp only
    rw [Dev.get_put_bankReg _ hf hoff _ (hin _ (by simp)), Dev.get_put_bankReg _ hf hoff _ (hin _ (by simp))]
  · rfl

theorem Dev.get_clearBankAll : (d.clearBankAll n m bank).get f = d.get f := by
  have hin := bankFields_in n m bank
  unfold Dev.clearBankAll Dev.setBank
  show Dev.get (Dev.put (Dev.put _ _ _) _ _) f = _
  rw [Dev.get_put_bankReg _ hf hoff _ (hin _ (by simp)), Dev.get_put_bankReg _ hf hoff _ (hin _ (by simp)), Dev.get_syncMaps _ hf hoff,
    Dev.get_put_bankReg _ hf hoff _ (hin _ (by simp)), Dev.get_put_bankReg _ hf hoff _ (hin _ (by simp)), Dev.get_put_bankReg _ hf hoff _ (hin _ (by simp)),
    Dev.get_clearBank]

end

section
variable (d : Dev) {n m : Nat} (hn : n < 256) (hm : m < 68)
include hn hm

theorem place_not_in_bankRegs : (F.CORE_ID_PHYSICAL n).off ∉ bankRegs n m ∧ (F.CIM_MAP_PHYSICAL n m).off ∉ bankRegs n m := by
  simp [bankRegs]
  omega

theorem Dev.samePlace_clearBankAll (bank : Nat) : SamePlace d (d.clearBankAll n m bank) n m := by
  obtain ⟨hcore, hmap⟩ := place_not_in_bankRegs hn hm
  exact ⟨d.get_clearBankAll bank (by simp) hcore, d.get_clearBankAll bank (by simp) hmap, d.clearBankAll_duty n m bank⟩

/-- Setting a field of these registers and showing it in the maps of the core moves no row. -/
theorem Dev.samePlace_put_syncMaps {g : Fld} (v : Nat) (hg : InBankRegs n m g) : SamePlace d ((d.put g v).syncMaps n m) n m := by
  obtain ⟨hcore, hmap⟩ := place_not_in_bankRegs hn hm
  refine ⟨?_, ?_, by simp⟩
  · rw [Dev.get_syncMaps _ (by simp) hcore, Dev.get_put_bankReg d (by simp) hcore v hg]
  · rw [Dev.get_syncMaps _ (by simp) hmap, Dev.get_put_bankReg d (by simp) hmap v hg]

/-- A read of a row after a clear of a bank at its index: zero where the clear has taken its key out. -/
theorem Dev.row_clearBankAll (bank b r : Nat) : (d.clearBankAll n m bank).row n m b r =
    if d.rowKeyOf n m b r < d.rowKeyOf n m bank 0 ∨ d.rowKeyOf n m bank 0 + 512 ≤ d.rowKeyOf n m b r then d.row n m b r else 0 := by
  rw [Dev.row, (d.samePlace_clearBankAll hn hm bank).rowKeyOf, Dev.clearBankAll_cells]
  refine (tget_filter 0 (fun k => decide (k < d.rowKeyOf n m bank 0) || decide (d.rowKeyOf n m bank 0 + 512 ≤ k)) d.cells _).trans ?_
  simp [Dev.row]

theorem Dev.row_clearBankAll_same (bank : Nat) {r : Nat} (hr : r < 512) : (d.clearBankAll n m bank).row n m bank r = 0 := by
  rw [d.row_clearBankAll hn hm, d.rowKeyOf_add n m bank r]
  exact if_neg (by omega)

theorem Dev.row_clearBankAll_of_zero (bank : Nat) {b r : Nat} (h : d.row n m b r = 0) : (d.clearBankAll n m bank).row n m b r = 0 := by
  rw [d.row_clearBankAll hn hm, h, ite_self]

end

/-! ### Banks start clear -/

section
variable (z : Fixed) (d : Dev) (n : Fin 256) (m : Fin 68)

/-- Both banks cleared, and the first made active. -/
def Dev.banksCleared : Dev := (((d.clearBankAll n m 0).clearBankAll n m 1).put (F.CIM_BANK_ACTIVE n m) 0).syncMaps n m

theorem Dev.row_banksCleared {bank r : Nat} (hb : bank < 2) (hr : r < 512) : (d.banksCleared n m).row n m bank r = 0 := by
  have hsame := ((d.clearBankAll n m 0).clearBankAll n m 1).samePlace_put_syncMaps n.isLt m.isLt 0 (bankFields_in n m 0 (F.CIM_BANK_ACTIVE n m) (by simp))
  unfold Dev.banksCleared
  rw [hsame.row (by simp)]
  obtain rfl | rfl : bank = 0 ∨ bank = 1 := by omega
  · exact Dev.row_clearBankAll_of_zero _ n.isLt m.isLt 1 (d.row_clearBankAll_same n.isLt m.isLt 0 hr)
  · exact Dev.row_clearBankAll_same _ n.isLt m.isLt 1 hr

theorem Dev.get_banksCleared {f : Fld} (hf : f.lo < 64) (hoff : f.off ∉ bankRegs n m) : (d.banksCleared n m).get f = d.get f := by
  unfold Dev.banksCleared
  rw [Dev.get_syncMaps _ hf hoff, Dev.get_put_bankReg _ hf hoff 0 (bankFields_in n m 0 _ (by simp)), Dev.get_clearBankAll _ 1 hf hoff, d.get_clearBankAll 0 hf hoff]

theorem Dev.banksCleared_mem : (d.banksCleared n m).mem = d.mem := by simp [Dev.banksCleared]

/-- The state words of index `m` of a core and of its banks are none of the registers that a clear reaches. -/
theorem stateWord_not_in_bankRegs (b : Fin 2) : unitWord (.cim n m) ∉ bankRegs n m ∧ unitWord (.bank n m b) ∉ bankRegs n m := by
  simp [bankRegs, unitWord]
  omega

theorem Dev.startUnit_cim : (d.enabled (.cim n m)).startUnit z (.cim n m) = (d.starting (.cim n m)).banksCleared n m := rfl

theorem Dev.startUnit_bank (b : Fin 2) : (d.enabled (.bank n m b)).startUnit z (.bank n m b) =
    (d.starting (.bank n m b)).clearBankAll n m b := rfl

end

/-! ### A die pool starts clear (R207, R209) -/

/-- What each of a list of folded operations establishes, and every one of them keeps, holds after the fold. -/
theorem foldl_establishes {α β : Type} (P : α → β → Prop) (f : β → α → β) (hmake : ∀ b a, P a (f b a))
    (hkeep : ∀ x b a, P x b → P x (f b a)) {x : α} : ∀ (l : List α) (b : β), x ∈ l → P x (l.foldl f b)
  | a :: l, b, hx => by
    rcases List.mem_cons.1 hx with rfl | hx
    · exact foldl_keeps (P x) f (hkeep x) l _ (hmake b x)
    · exact foldl_establishes P f hmake hkeep l (f b a) hx

/-- Every byte of the pool and the vault of a die reads zero. -/
def PoolClear (die : Nat) (d : Dev) : Prop := ∀ a < vaultOff + 0x100000, Memory.read d.mem (poolAddr die a) = 0

/-- The clear of the pool of a die, its vault by a wipe. -/
def Dev.clearPool (d : Dev) (die : Nat) : Dev :=
  let d := (d.startWipe wipeClearing die).put (F.POOL_DP_STATUS_CLEARING die) 1
  { d with mem := Memory.clear d.mem (poolAddr die 0) vaultOff }

theorem Dev.clearPools_eq (z : Fixed) (d : Dev) (p : Nat) : d.clearPools z p = ((List.range 4).filter fun die => z.partOfDie die = p).foldl Dev.clearPool d := rfl

theorem Dev.clearPool_mem (d : Dev) (die : Nat) :
    (d.clearPool die).mem = Memory.clear (Memory.clear d.mem (poolAddr die vaultOff) 0x100000) (poolAddr die 0) vaultOff := by
  simp [Dev.clearPool, Dev.startWipe]

theorem Dev.clearPool_clears (d : Dev) (die : Nat) : PoolClear die (d.clearPool die) := by
  intro a ha
  rw [Dev.clearPool_mem]
  by_cases hv : a < vaultOff
  · exact Memory.read_clear_inside _ (by unfold poolAddr; omega) (by unfold poolAddr; omega)
  · exact Memory.read_clear_of_zero _ _ (Memory.read_clear_inside _ (by unfold poolAddr; omega) (by unfold poolAddr; omega))

theorem Dev.clearPool_keeps_clear (x : Nat) (d : Dev) (die : Nat) (h : PoolClear x d) : PoolClear x (d.clearPool die) := by
  intro a ha
  rw [Dev.clearPool_mem]
  exact Memory.read_clear_of_zero _ _ (Memory.read_clear_of_zero _ _ (h a ha))

theorem Dev.clearPools_clears {z : Fixed} (d : Dev) {p die : Nat} (hdie : die < 4) (hp : z.partOfDie die = p) : PoolClear die (d.clearPools z p) := by
  rw [Dev.clearPools_eq]
  exact foldl_establishes PoolClear Dev.clearPool Dev.clearPool_clears Dev.clearPool_keeps_clear _ _ (by simp [hdie, hp])

@[simp] theorem Dev.foldl_bump_mem {α : Type} (g : α → Fld) (k : Nat) (l : List α) (d : Dev) : (l.foldl (fun d x => d.bump (g x) k) d).mem = d.mem :=
  foldl_keeps (fun e : Dev => e.mem = d.mem) (fun e x => e.bump (g x) k) (fun _ _ he => he) l d rfl

/-- Zeroing wall space takes bytes out of the store. -/
theorem Dev.clearWall_keeps_clear {z : Fixed} {d : Dev} {p die : Nat} (h : PoolClear die d) : PoolClear die (d.clearWall z p) := by
  intro a ha
  unfold Dev.clearWall Dev.zeroHalves
  rw [Dev.foldl_bump_mem]
  exact Memory.read_filter_of_zero (fun _ _ _ => rfl) (h a ha)

/-- The device that a partition leaves as it starts, but for CLEARING of MEM_CLEAR: its pools are cleared, and its wall space where the boot clear has not left it so. -/
def Dev.partCleared (d : Dev) (z : Fixed) (p : Nat) : Dev :=
  if (d.clearPools z p).bit F.MEM_CLEAR_CLEARED then d.clearPools z p else (d.clearPools z p).clearWall z p

theorem Dev.startUnit_part (z : Fixed) (d : Dev) (p : Fin 4) : (d.enabled (.part p)).startUnit z (.part p) = ((d.starting (.part p)).partCleared z p).showClearing := rfl

theorem Dev.partCleared_clears {z : Fixed} (d : Dev) {p die : Nat} (hdie : die < 4) (hp : z.partOfDie die = p) : PoolClear die (d.partCleared z p) := by
  have hpool := d.clearPools_clears hdie hp
  unfold Dev.partCleared
  split
  · exact hpool
  · exact Dev.clearWall_keeps_clear hpool

/-! ### What the start of a partition leaves -/

/-- Two devices that agree on the cells of the banks, and on every register below the pools and the stacks. -/
structure SameBelowPools (d e : Dev) : Prop where
  cells : e.cells = d.cells
  get : ∀ f : Fld, f.lo < 64 → f.off < 0x5000000 → e.get f = d.get f

theorem SameBelowPools.refl (d : Dev) : SameBelowPools d d := ⟨rfl, fun _ _ _ => rfl⟩

theorem SameBelowPools.trans {a b c : Dev} (h : SameBelowPools a b) (h' : SameBelowPools b c) : SameBelowPools a c :=
  ⟨h'.cells.trans h.cells, fun f hlo hoff => (h'.get f hlo hoff).trans (h.get f hlo hoff)⟩

theorem sameBelowPools_of_regs {d e : Dev} (hr : e.regs = d.regs) (hu : e.macrosUp = d.macrosUp) (hc : e.cells = d.cells) : SameBelowPools d e :=
  ⟨hc, fun f _ _ => by simp only [Dev.get, Dev.unset, hr, hu]⟩

theorem sameBelowPools_put (d : Dev) {g : Fld} (v : Nat) (hlo : g.lo < 64) (hoff : 0x5000000 ≤ g.off) : SameBelowPools d (d.put g v) :=
  ⟨rfl, fun _ hf hf' => d.get_put_off v hf hlo (by omega)⟩

theorem sameBelowPools_foldl {α : Type} (f : Dev → α → Dev) (h : ∀ d a, SameBelowPools d (f d a)) (l : List α) (d : Dev) : SameBelowPools d (l.foldl f d) :=
  foldl_keeps (SameBelowPools d) f (fun e a he => he.trans (h e a)) l d (.refl d)

theorem sameBelowPools_puts {l : List (Fld × Nat)} (d : Dev) (h : ∀ p ∈ l, p.1.lo < 64 ∧ 0x5000000 ≤ p.1.off) : SameBelowPools d (d.puts l) := by
  refine ⟨Dev.puts_cells .., fun f hf hf' => Dev.get_puts_other l d f fun p hp => ?_⟩
  obtain ⟨hlo, hoff⟩ := h p hp
  simp only [Fld.key]
  omega

theorem sameBelowPools_startWipe (d : Dev) (cause die : Nat) : SameBelowPools d (d.startWipe cause die) :=
  have hputs := sameBelowPools_puts d (l := [(F.POOL_VAULT_STATUS_WIPING, setBitAt (d.get F.POOL_VAULT_STATUS_WIPING) die true), (F.POOL_VAULT_STATUS_LAST_CAUSE, cause),
    (F.POOL_VAULT_STATUS_WIPES, d.get F.POOL_VAULT_STATUS_WIPES + 1), (F.POOL_DP_STATUS_WIPING die, 1)]) (by simp; omega)
  hputs.trans (sameBelowPools_of_regs rfl rfl rfl)

theorem sameBelowPools_clearPool (d : Dev) (die : Nat) : SameBelowPools d (d.clearPool die) :=
  have h := (sameBelowPools_startWipe d wipeClearing die).trans (sameBelowPools_put _ (g := F.POOL_DP_STATUS_CLEARING die) 1 (by simp) (by simp; omega))
  h.trans (sameBelowPools_of_regs rfl rfl rfl)

theorem sameBelowPools_clearWall (z : Fixed) (d : Dev) (p : Nat) : SameBelowPools d (d.clearWall z p) := by
  unfold Dev.clearWall Dev.zeroHalves
  refine .trans ?_ (sameBelowPools_foldl (fun e h => e.bump (F.MEM_STACK_CNT_WRITE_UNITS (h / 2)) 50331648)
    (fun e _ => sameBelowPools_put e _ (by simp) (by simp; omega)) _ _)
  exact sameBelowPools_of_regs rfl rfl rfl

theorem sameBelowPools_partCleared (z : Fixed) (d : Dev) (p : Nat) : SameBelowPools d (d.partCleared z p).showClearing := by
  have hpools : SameBelowPools d (d.clearPools z p) := sameBelowPools_foldl _ sameBelowPools_clearPool _ d
  refine .trans ?_ (sameBelowPools_put _ _ (by simp) (by simp))
  unfold Dev.partCleared
  split
  · exact hpools
  · exact hpools.trans (sameBelowPools_clearWall z _ p)

/-- Settles O8: each unit starts by `writeEn_off`, and what it is cleared of is the lemma on its clear above. -/
theorem startingClearsTenantData : Obligations.starting_clears_tenant_data := by
  unfold Obligations.starting_clears_tenant_data
  refine fun s q n m b p => ⟨fun hq h => ?_, fun hm hq h => ?_, fun hm hq h => ?_, fun hq h => ?_⟩
  · refine ⟨_, exec_enWrite_core_off hq h, Dev.get_puts_mem (f := F.CORE_STATE_STATE n) (v := codeSTARTING) _ _ (coreStartFields_distinct n)
      (by simp [coreStartFields]), fun a ha => ?_⟩
    rw [Dev.puts_mem]
    exact Memory.read_clear_inside _ (by unfold scratchAddr; omega) (by unfold scratchAddr; omega)
  · obtain ⟨hoff, -⟩ := stateWord_not_in_bankRegs n m b
    refine ⟨_, exec_enWrite_off hq (s.d.homeUnit_cim n hm) h rfl, ?_⟩
    rw [Dev.startUnit_cim]
    exact ⟨(Dev.get_banksCleared _ n m (by simp [swSTATE]) hoff).trans (s.d.stateOf_starting _), fun bank hb r hr => Dev.row_banksCleared _ n m hb hr,
      Dev.banksCleared_mem ..⟩
  · obtain ⟨-, hoff⟩ := stateWord_not_in_bankRegs n m b
    refine ⟨_, exec_enWrite_off hq (s.d.homeUnit_bank n b hm) h rfl, ?_⟩
    rw [Dev.startUnit_bank]
    exact ⟨(Dev.get_clearBankAll _ b (by simp [swSTATE]) hoff).trans (s.d.stateOf_starting _), fun r hr => Dev.row_clearBankAll_same _ n.isLt m.isLt b hr,
      Dev.clearBankAll_mem ..⟩
  · have hsame := sameBelowPools_partCleared s.z (s.d.starting (.part p)) p
    refine ⟨_, exec_enWrite_off hq rfl h rfl, ?_⟩
    rw [Dev.startUnit_part]
    exact ⟨(hsame.get _ (by simp [swSTATE]) (by simp [swSTATE, unitWord]; omega)).trans (s.d.stateOf_starting _),
      fun die hdie hp => Dev.partCleared_clears _ hdie hp, hsame.cells⟩

end Sys2Proof.Machine
end

section
/-! The count of the log ring (R354): FW_LOG_SEQ is a counter of 64 bits, and the 32 bits of a record's SEQ are its low half. -/
namespace Sys2Proof.Machine

open Sys2Proof Sys2Proof.Safety

theorem Dev.get_FW_LOG_SEQ_logCommit {d : Dev} {level : Nat} (h : d.logWritten level = true) (proc code a0 a1 : Nat) :
    (d.logCommit proc level code a0 a1).get F.FW_LOG_SEQ = (d.get F.FW_LOG_SEQ + 1) % 2 ^ 64 := by
  simp only [Dev.logCommit, h, if_true, Dev.get_emit, Dev.get_put_same]

/-- A record of hardware, below the level of traces, counts one in FW_LOG_SEQ, modulo 2^64. -/
theorem exec_logRecordCommit_hardware {s : State} {level : Fin 4} (h : s.d.logWritten level = true) (code : BitVec 16) (a0 a1 : BitVec 64) :
    ∃ u, exec (.logRecordCommit 7 level.castSucc code a0 a1 false) s = .next u ∧ u.d.get F.FW_LOG_SEQ = (s.d.get F.FW_LOG_SEQ + 1) % 2 ^ 64 := by
  have htrace : level.val ≠ 4 := by omega
  have hrec : s.d.logRecord 7 level.castSucc.val code.toNat a0.toNat a1.toNat false = s.d.logCommit 7 level.castSucc.val code.toNat a0.toNat a1.toNat := by
    simp [Dev.logRecord, h, htrace]
  refine ⟨_, rfl, ?_⟩
  show (s.d.logRecord 7 level.castSucc.val code.toNat a0.toNat a1.toNat false).get F.FW_LOG_SEQ = _
  rw [hrec]
  exact Dev.get_FW_LOG_SEQ_logCommit h 7 code.toNat a0.toNat a1.toNat

/-- Refutes O57: of a log that holds 2^32 − 1 records the next one makes FW_LOG_SEQ 2^32, where the statement's clause on the log has 0. -/
theorem not_fusesTamperAndFirmware : ¬ Obligations.fuses_tamper_and_firmware := by
  unfold Obligations.fuses_tamper_and_firmware
  intro h
  obtain ⟨s, hwritten, hseq⟩ : ∃ s : State, s.d.logWritten (0 : Fin 4) = true ∧ s.d.get F.FW_LOG_SEQ = 2 ^ 32 - 1 :=
    ⟨{ d := { regs := RegFile.puts [] [(F.FW_FEAT_ON, 1), (F.FW_LOG_CTRL_EN, 1), (F.FW_LOG_SEQ, 2 ^ 32 - 1)] } }, by decide, by decide⟩
  obtain ⟨-, -, -, -, -, -, -, -, hlog, -⟩ := h s
  obtain ⟨u, hu, hclaim, -⟩ := hlog 0 0 0 0 hwritten
  obtain ⟨v, hv, hcount⟩ := exec_logRecordCommit_hardware hwritten 0 0 0
  obtain rfl := Host.Outcome.next.inj (hu.symm.trans hv)
  have hmod : (2 ^ 32 - 1 + 1) % 2 ^ 32 = (2 ^ 32 - 1 + 1) % 2 ^ 64 := by simpa only [hseq] using hclaim.symm.trans hcount
  exact absurd hmod (by decide)

end Sys2Proof.Machine
end
